-- ==== Sys2Proof/Word.lean ====
section
/-! DEFINITION. The byte, the one word size the ports, the frames and the stored image of the WN610 are made of. -/

namespace Sys2Proof

/-- A byte of a frame, of a payload or of the stored image; node addresses and epochs are bytes too
(scope section 6). -/
abbrev Byte := BitVec 8

end Sys2Proof
end

