-- ==== Sys2Proof/Syntax.lean ====
section
/-! DEFINITION. The commands of the WN610: one constructor per row of spec/opcode_table.json, with the operands the
event carries (the frame as received, the number of the timer, the answer of the memory). -/

namespace Sys2Proof

/-- The three ports of the frame link (scope section 2). -/
inductive Port where
  | cp | sp | dp
  deriving DecidableEq, Repr

/-- The header fields of an accepted frame beside its class and its payload length (R181). -/
structure Header where
  rank : BitVec 2
  origin : Bool
  bit0 : Bool
  node : Byte
  epoch : Byte
  deriving DecidableEq, Repr

/-- One byte on a line with the mark whether its stop bit was there (R180). -/
structure LineByte where
  value : Byte
  stopBit : Bool
  deriving DecidableEq, Repr

/-- What the serial memory answers to the reads of an image check (R203): nothing, the bytes it holds as far as the
model follows them (`State.mgmt.memory`), or bytes put there from outside. -/
inductive MemoryRead where
  | noAnswer
  | held
  | bytes (l : List Byte)
  deriving DecidableEq, Repr

/-- The commands. A frame row carries the frame's header and its payload; a drive command's payload stands after its
kind byte, a management request's after its request code, a READ-STATUS's after its request code with the
selector byte taken out (`tag` first, then the bytes after the selector). -/
inductive Instr where
  | powerOn
  | resetLow
  | resetRise
  | imageCheckComplete (answer : MemoryRead)
  | stopPress
  | stopRelease
  | damagedFrame (port : Port) (run : List LineByte)
  | undefinedClassFrame (port : Port) (cls : BitVec 4) (h : Header) (payload : List Byte)
  | frameWithoutUser (port : Port) (cls : BitVec 4) (h : Header) (payload : List Byte)
  | coilSample (h : Header) (payload : List Byte)
  | inclineSample (h : Header) (payload : List Byte)
  | contactSample (h : Header) (payload : List Byte)
  | powerSample (h : Header) (payload : List Byte)
  | rainSample (h : Header) (payload : List Byte)
  | driveStatus (h : Header) (payload : List Byte)
  | wheelSpeed (h : Header) (rest : List Byte)
  | bladeSpeed (h : Header) (rest : List Byte)
  | bladeStart (h : Header) (rest : List Byte)
  | bladeStop (h : Header) (rest : List Byte)
  | deckHeight (h : Header) (rest : List Byte)
  | brake (h : Header) (rest : List Byte)
  | ping (h : Header) (rest : List Byte)
  | undefinedRequest (h : Header) (payload : List Byte)
  | readTable (h : Header) (rest : List Byte)
  | writeTable (h : Header) (rest : List Byte)
  | readStatusStack (h : Header) (tag : Byte) (rest : List Byte)
  | readStatusEnvelope (h : Header) (tag : Byte) (rest : List Byte)
  | readStatusLoops (h : Header) (tag : Byte) (rest : List Byte)
  | readStatusCells (h : Header) (tag : Byte) (rest : List Byte)
  | readStatusHazards (h : Header) (tag : Byte) (rest : List Byte)
  | readStatusDrives (h : Header) (tag : Byte) (rest : List Byte)
  | readStatusRefusal (h : Header) (tag : Byte) (rest : List Byte)
  | readStatusImage (h : Header) (tag : Byte) (rest : List Byte)
  | startMow (h : Header) (rest : List Byte)
  | goHome (h : Header) (rest : List Byte)
  | leaveDock (h : Header) (rest : List Byte)
  | pause (h : Header) (rest : List Byte)
  | resume (h : Header) (rest : List Byte)
  | runManoeuvre (h : Header) (rest : List Byte)
  | storeImage (h : Header) (rest : List Byte)
  | loadImage (h : Header) (rest : List Byte)
  | restart (h : Header) (rest : List Byte)
  | storeComplete
  | storeFailure
  | loadComplete (answer : MemoryRead)
  | fadeTimerExpiry (loop : Fin 8)
  | nodeDeadlineExpiry (node : Fin 8)
  | holdTimerExpiry (source : Fin 16)
  | wireLostDelayExpiry
  | stepTimerExpiry
  | escapeCompletionReport
  | trapReport
  | stopStepStart
  | sendComplete
  | replyTimerExpiry
  | refreshTimerExpiry
  | livenessTimerExpiry
  | cpLineFree
  | powerLoss
  deriving DecidableEq, Repr

end Sys2Proof
end

