-- ==== Sys2Proof/Config.lean ====
section
/-! DEFINITION. What the manual leaves open as a VALUE: the free bytes. Nothing constrains them. -/

namespace Sys2Proof.Config

/-- The free byte number `n`: a byte the device sends and whose value no rule states. It stands for the tag
or the request code that a reply repeats from a request that carries none, and for the bytes of a REFUSAL notice
beside the empty mark. The machine reads `freeByte s.fresh` and advances `s.fresh`.
DESIGN CHOICE (log entry 6), safe: no proof can use a value of it. -/
opaque freeByte (n : Nat) : Byte

end Sys2Proof.Config
end

