-- ==== Sys2Proof/Machine/Bytes.lean ====
section
/-! DEFINITION. Bytes: byte order, sign, the check word (R211), the run check of a port (R180, R181), the frame as bytes. -/

namespace Sys2Proof.Machine

/-- `x` brought into the range `lo` to `hi` (scope section 6, Clamping). -/
def clampNat (lo hi x : Nat) : Nat := if x < lo then lo else if hi < x then hi else x

/-- `x` brought into the range `lo` to `hi`, signed. -/
def clampInt (lo hi x : Int) : Int := if x < lo then lo else if hi < x then hi else x

/-- Two bytes, least significant first (scope section 6, Byte order). -/
def u16 (lo hi : Byte) : Nat := lo.toNat + 256 * hi.toNat

/-- Two bytes, least significant first, as a two's complement number. -/
def s16 (lo hi : Byte) : Int := (hi ++ lo : BitVec 16).toInt

/-- One byte as a two's complement number. -/
def s8 (b : Byte) : Int := b.toInt

/-- The low byte of a number. -/
def enc1 (n : Int) : List Byte := [BitVec.ofInt 8 n]

/-- A number as two bytes, least significant first, two's complement when negative. -/
def enc2 (n : Int) : List Byte :=
  let w := BitVec.ofInt 16 n
  [w.extractLsb' 0 8, w.extractLsb' 8 8]

/-- A number as four bytes, least significant first. -/
def enc4 (n : Nat) : List Byte :=
  let w := BitVec.ofNat 32 n
  [w.extractLsb' 0 8, w.extractLsb' 8 8, w.extractLsb' 16 8, w.extractLsb' 24 8]

/-- A flag as one byte (section 11.3). -/
def encFlag (b : Bool) : List Byte := [if b then 1 else 0]

/-- A one-byte item that may be none, 0xFF for none (section 11.3). -/
def encOpt1 : Option Nat → List Byte
  | some n => enc1 n
  | none => [0xFF]

/-- A two-byte item that may be none, 0x8000 for none (section 11.3). -/
def encOpt2 : Option Int → List Byte
  | some n => enc2 n
  | none => [0x00, 0x80]

/-- One shift of the check word register (R211). -/
def crcShift (r : BitVec 16) : BitVec 16 :=
  if r.msb then (r <<< 1) ^^^ 0x1021#16 else r <<< 1

/-- One byte combined into the top of the register, then eight shifts (R211). -/
def crcByte (r : BitVec 16) (b : Byte) : BitVec 16 :=
  crcShift (crcShift (crcShift (crcShift (crcShift (crcShift (crcShift (crcShift
    (r ^^^ (b ++ 0#8 : BitVec 16)))))))))

/-- The check word of a run of bytes: register 0xFFFF at the start, not inverted at the end (R211). -/
def checkWord (l : List Byte) : BitVec 16 := l.foldl crcByte 0xFFFF#16

/-- The check word as sent, low byte first (R211). -/
def checkBytes (l : List Byte) : List Byte :=
  let w := checkWord l
  [w.extractLsb' 0 8, w.extractLsb' 8 8]

/-- The bytes of a frame on the line: header, payload, check word (section 11.1). -/
def frameBytes (cls : BitVec 4) (h : Header) (payload : List Byte) : List Byte :=
  let body : List Byte :=
    [(cls ++ h.rank ++ BitVec.ofBool h.origin ++ BitVec.ofBool h.bit0 : BitVec 8), h.node, h.epoch,
      BitVec.ofNat 8 payload.length] ++ payload
  body ++ checkBytes body

/-- The header of every frame the WN610 builds: rank 0, origin bit set (R165, R192). -/
def ownHeader (node epoch : Byte) : Header := ⟨0, true, false, node, epoch⟩

/-- The receive state of a port (R180). -/
inductive RxState where
  | idle | receiving | overrun
  deriving DecidableEq, Repr

/-- What a port holds while a run of bytes arrives (R180). -/
structure RxRun where
  state : RxState
  bytes : List Byte
  damaged : Bool
  deriving DecidableEq, Repr

/-- A byte arrives: the second column of the table of R180. -/
def rxByte (x : RxRun) (b : LineByte) : RxRun :=
  match x.state with
  | .idle => ⟨.receiving, [b.value], !b.stopBit⟩
  | .receiving =>
    let bytes := x.bytes ++ [b.value]
    ⟨if bytes.length ≥ 31 then .overrun else .receiving, bytes, x.damaged || !b.stopBit⟩
  | .overrun => x

/-- The run a port holds when the idle gap comes. -/
def rxRun (l : List LineByte) : RxRun := l.foldl rxByte ⟨.idle, [], false⟩

/-- A frame as accepted: class, header, payload. -/
structure Frame where
  cls : BitVec 4
  h : Header
  payload : List Byte
  deriving DecidableEq, Repr

/-- The header of a run of at least six bytes, read as R181 lays down. -/
def readHeader (b0 node epoch : Byte) : BitVec 4 × Header :=
  (b0.extractLsb' 4 4, ⟨b0.extractLsb' 2 2, b0.getLsbD 1, b0.getLsbD 0, node, epoch⟩)

/-- The check of a run when the line has been idle for three byte times: `none` when the run is discarded at the
port (R180, R181), else the accepted frame. -/
def checkRun (x : RxRun) : Option Frame :=
  match x.state, x.bytes with
  | .receiving, b0 :: node :: epoch :: len :: tail =>
    let n := len.toNat
    let payload := tail.take n
    let body := b0 :: node :: epoch :: len :: payload
    if x.damaged || x.bytes.length < 6 || 24 < n || x.bytes.length ≠ 4 + n + 2 || tail.drop n ≠ checkBytes body then none
    else
      let (cls, h) := readHeader b0 node epoch
      some ⟨cls, h, payload⟩
  | _, _ => none

end Sys2Proof.Machine
end

