-- ==== Sys2Proof/Machine/Types.lean ====
section
/-! DEFINITION. The types the state is made of: the twelve tables (R1 to R187, section 11.4) and the records of the
eleven blocks. -/

namespace Sys2Proof.Machine

/-! ### The tables -/

/-- What an intake entry does with a frame it selects (R183). -/
inductive IntakeAction where
  | use | useMirror | mirror | discard
  deriving DecidableEq, Repr

/-- Table 0, one entry (R183). -/
structure IntakeEntry where
  valid : Bool
  base : BitVec 12
  mask : BitVec 12
  ports : BitVec 3
  action : IntakeAction
  deriving DecidableEq, Repr

/-- Mounting position of a coil (R1). -/
inductive Role where
  | front | left | right | rear
  deriving DecidableEq, Repr

/-- Table 1, one entry (R1). -/
structure CoilEntry where
  node : Byte
  role : Role
  gain : Nat
  period : Nat
  present : Bool
  deriving DecidableEq, Repr

/-- The class of a loop (R5). -/
inductive LoopClass where
  | perimeter | island | guide
  deriving DecidableEq, Repr

/-- +1 or −1: a loop's polarity, a cell's sign, the follow sense. -/
inductive Sign where
  | plus | minus
  deriving DecidableEq, Repr

/-- Table 2, one entry (R5). Chip i of the code is bit i, 1 for +1 (section 11.4). -/
structure LoopEntry where
  enabled : Bool
  cls : LoopClass
  polarity : Sign
  code : BitVec 16
  refCoil : Fin 4
  tlock : Nat
  tlose : Nat
  lockCount : Nat
  loseCount : Nat
  slip : Nat
  alpha : Nat
  fadeTime : Nat
  deriving DecidableEq, Repr

/-- Table 3, one entry (R22). -/
structure Breakpoint where
  f : Nat
  d : Nat
  deriving DecidableEq, Repr

/-- Table 4, one entry (R33). -/
structure Band where
  bound : Nat
  cap : Nat
  deriving DecidableEq, Repr

/-- What a gate cell does with an order that passes its rank check (R138). -/
inductive Disposition where
  | take | refuse | defer
  deriving DecidableEq, Repr

/-- Table 5, one cell (R138). -/
structure GateCell where
  present : Bool
  rankLimit : Nat
  disp : Disposition
  deriving DecidableEq, Repr

/-- Table 6, one entry (R157). -/
structure DriveEntry where
  present : Bool
  node : Byte
  scale : Nat
  nominal : Nat
  stall : Nat
  maximum : Nat
  deriving DecidableEq, Repr

/-- What a hazard source does when it rises (R80). -/
inductive Response where
  | note | slow | escape | ret | halt
  deriving DecidableEq, Repr

/-- Table 7, one entry (R80). -/
structure HazardEntry where
  enabled : Bool
  response : Response
  manoeuvre : Fin 8
  slowCap : Nat
  hold : Nat
  deriving DecidableEq, Repr

/-- The limit kind of an escape step (R101). -/
inductive LimitKind where
  | dist | time | turn
  deriving DecidableEq, Repr

/-- Table 8, one step entry (R101). `stop` is the blade action STOP; bit n of the mask is source n. -/
structure EscStep where
  left : Int
  right : Int
  kind : LimitKind
  amount : Nat
  stop : Bool
  mask : BitVec 16
  deriving DecidableEq, Repr

/-- Table 9 (R119). The caps of DOCKED and HALT are fixed at 0 and not held (R39). -/
structure HomeTable where
  perimeter : Fin 8
  guide : Fin 8
  sense : Sign
  seekOffset : Int
  window : Nat
  kp : Nat
  turnLimit : Nat
  seekBase : Nat
  trackBase : Nat
  approachBase : Nat
  capture : Nat
  approach : Nat
  dockMv : Nat
  dockConfirm : Nat
  maxFollow : Nat
  undock : Fin 8
  outside : Nat
  resumeLevel : Nat
  capIdle : Nat
  capMow : Nat
  capFollow : Nat
  capEscape : Nat
  stepLimit : Nat
  chainLimit : Nat
  deriving DecidableEq, Repr

/-- Table 10 (R171, R187). -/
structure TimingTable where
  replyTimeout : Nat
  refresh : Nat
  rankFloor : Nat
  liveness : Nat
  deriving DecidableEq, Repr

/-- One of the four nodes of table 11 (R84). -/
structure SensorNode where
  present : Bool
  node : Byte
  period : Nat
  deriving DecidableEq, Repr

/-- Table 11 (R84). -/
structure SensorTable where
  incline : SensorNode
  contact : SensorNode
  power : SensorNode
  rain : SensorNode
  tilt : Nat
  rainLevel : Nat
  returnLevel : Nat
  overload : Nat
  wireDelay : Nat
  deriving DecidableEq, Repr

/-- The twelve tables in use. The manoeuvre table is its eight headers and its 64 steps (R101). -/
structure Tables where
  intake : Vector IntakeEntry 16
  coil : Vector CoilEntry 4
  loop : Vector LoopEntry 8
  dist : Vector Breakpoint 8
  bands : Vector Band 12
  gate : Vector GateCell 72
  drive : Vector DriveEntry 6
  hazard : Vector HazardEntry 16
  counts : Vector Nat 8
  steps : Vector EscStep 64
  home : HomeTable
  timing : TimingTable
  sensor : SensorTable
  deriving DecidableEq, Repr

/-! ### Perimeter decoder -/

/-- The state of a tracker (R10). -/
inductive TrackState where
  | off | search | locked | fading
  deriving DecidableEq, Repr

/-- A loop's tracker (R10). `fade` is the fade timer: stopped, or its remaining ms. -/
structure Tracker where
  state : TrackState
  rho : Fin 16
  cand : Fin 16
  run : Nat
  lose : Nat
  fade : Option Nat
  deriving DecidableEq, Repr

/-- The mark of an estimate cell (R19). -/
inductive CellMark where
  | empty | fresh | stale
  deriving DecidableEq, Repr

/-- An estimate cell (R19). -/
structure EstCell where
  mark : CellMark
  con : Int
  f : Nat
  d : Nat
  sign : Sign
  e : Int
  used : Nat
  deriving DecidableEq, Repr

/-- A coil's intake record (R3), with the mark of R17 that no arrival has come yet from a new address. -/
structure CoilIntake where
  lastSeq : Option Byte
  missed : Nat
  awaiting : Bool
  deriving DecidableEq, Repr

/-- The perimeter decoder. The cell of loop l and coil c is number 4 × l + c. -/
structure Decoder where
  trackers : Vector Tracker 8
  cells : Vector EstCell 32
  intakes : Vector CoilIntake 4
  n : Option Int
  outside : Bool
  wireLost : Bool
  deriving DecidableEq, Repr

/-! ### Drives, envelope unit -/

inductive Wheel where
  | left | right
  deriving DecidableEq, Repr

inductive Blade where
  | bladeA | bladeB | bladeC
  deriving DecidableEq, Repr

/-- The six logical drives (scope section 4). -/
inductive Drive where
  | wheel (w : Wheel)
  | blade (b : Blade)
  | deck
  deriving DecidableEq, Repr

/-- The number of a blade. -/
def Blade.idx : Blade → Fin 3
  | .bladeA => 0 | .bladeB => 1 | .bladeC => 2

/-- The number of a logical drive (R157, section 11.2). -/
def Drive.idx : Drive → Fin 6
  | .wheel .left => 0 | .wheel .right => 1
  | .blade .bladeA => 2 | .blade .bladeB => 3 | .blade .bladeC => 4
  | .deck => 5

/-- A value for each blade. -/
structure PerBlade where
  a : Nat
  b : Nat
  c : Nat
  deriving DecidableEq, Repr

/-- The five source caps (R33 to R39). -/
structure Caps where
  proximity : Nat
  slope : Nat
  load : Nat
  hazard : Nat
  activity : Nat
  deriving DecidableEq, Repr

/-- A value for each logical drive: the requested values or the held values (R41). -/
structure DriveValues where
  left : Int
  right : Int
  blades : PerBlade
  deck : Nat
  deriving DecidableEq, Repr

/-- The envelope unit: its inputs (R35, R36, R37), the caps, K, requested and held values (R41). -/
structure Envelope where
  n : Option Int
  pitch : Int
  roll : Int
  percents : PerBlade
  caps : Caps
  k : Nat
  req : DriveValues
  held : DriveValues
  deriving DecidableEq, Repr

/-! ### Activity unit -/

/-- The kinds of activity (R50). -/
inductive Kind where
  | idle | mow | follow | docked | escape | halt
  deriving DecidableEq, Repr

/-- The MOW record (R51). -/
structure MowRec where
  entry : Byte
  deriving DecidableEq, Repr

/-- The FOLLOW phases (chapter 6). -/
inductive Phase where
  | seek | track | approach | contact
  deriving DecidableEq, Repr

/-- The FOLLOW record (R51). `byReturn` is the cause RETURN, else the cause is REQUEST. -/
structure FollowRec where
  byReturn : Bool
  entry : Byte
  loop : Fin 8
  phase : Phase
  travelled : Nat
  endAfter : Bool
  confirm : Nat
  deriving DecidableEq, Repr

/-- The DOCKED record (R51). `contact` is the contact state CONTACT, else LOST. -/
structure DockedRec where
  entry : Byte
  contact : Bool
  endAfter : Bool
  deriving DecidableEq, Repr

/-- FOLLOW and DOCKED share one place in the stack order (R50). -/
inductive HomeRec where
  | follow (r : FollowRec)
  | docked (r : DockedRec)
  deriving DecidableEq, Repr

/-- The cause of an ESCAPE record (R51). -/
inductive EscCause where
  | source (i : Fin 16)
  | request
  | undock
  deriving DecidableEq, Repr

/-- The ESCAPE record (R51). -/
structure EscRec where
  cause : EscCause
  entry : Byte
  man : Fin 8
  step : Fin 8
  progress : Nat
  elapsed : Nat
  chain : Nat
  deriving DecidableEq, Repr

/-- A cause of a HALT (R51). -/
inductive HaltCause where
  | source (i : Fin 16)
  | pause
  | noDock
  deriving DecidableEq, Repr

/-- A HALT cause set: bit n for source n, PAUSE, NO-DOCK (R51, section 11.3). -/
structure CauseSet where
  sources : BitVec 16
  pause : Bool
  noDock : Bool
  deriving DecidableEq, Repr

/-- The HALT record (R51). -/
structure HaltRec where
  entry : Byte
  causes : CauseSet
  deriving DecidableEq, Repr

/-- The activity stack above its IDLE record: one place for each kind in the stack order, so that the order and the
bound of R50 hold by construction. `Stack.records` lists it bottom to top. -/
structure Stack where
  mow : Option MowRec
  home : Option HomeRec
  esc : Option EscRec
  halt : Option HaltRec
  deriving DecidableEq, Repr

/-- A record of the stack as R74 lists them. -/
inductive ActRecord where
  | idle
  | mow (r : MowRec)
  | follow (r : FollowRec)
  | docked (r : DockedRec)
  | escape (r : EscRec)
  | halt (r : HaltRec)
  deriving DecidableEq, Repr

/-- The activity unit (R50 to R68). -/
structure Activity where
  stack : Stack
  epoch : Byte
  bladeEnable : Bool
  shadow : Bool
  pendingReturn : Bool
  deriving DecidableEq, Repr

/-! ### Hazard monitor -/

/-- The state of a hazard source (R76). -/
inductive SrcState where
  | quiet | raised | held
  deriving DecidableEq, Repr

/-- A hazard source record (R76). -/
structure SrcRec where
  cond : Bool
  state : SrcState
  hold : Option Nat
  owed : Bool
  raisedSince : Bool
  deriving DecidableEq, Repr

/-- The liveness state of a sensor node (R85). -/
inductive NodeLive where
  | pending | fresh | silent
  deriving DecidableEq, Repr

/-- A liveness record (R85). `deadline` is stopped, or its remaining ms. -/
structure NodeRec where
  state : NodeLive
  deadline : Option Nat
  deriving DecidableEq, Repr

/-- The fields of a POWER-SAMPLE the monitor keeps (R91). -/
structure PowerSample where
  percent : Nat
  batteryMv : Nat
  dockMv : Nat
  currentMa : Int
  temp : Int
  charging : Bool
  deriving DecidableEq, Repr

/-- The fields of an INCLINE-SAMPLE the monitor keeps (R90). -/
structure InclineSample where
  pitch : Int
  roll : Int
  heading : Nat
  deriving DecidableEq, Repr

/-- The kept samples (R89 to R92), each with its taken mark (R99). -/
structure KeptSamples where
  contact : Byte
  contactTaken : Bool
  incline : InclineSample
  inclineTaken : Bool
  power : PowerSample
  powerTaken : Bool
  wetness : Nat
  wetnessTaken : Bool
  deriving DecidableEq, Repr

/-- The hazard monitor. Nodes 0 to 3 are the coils, 4 inclination, 5 contact, 6 power, 7 rain; a node that is not
present has no record (R85). `pending` is the notice pending set (R96). -/
structure HazardMonitor where
  sources : Vector SrcRec 16
  pending : BitVec 20
  nodes : Vector (Option NodeRec) 8
  wireDelay : Option Nat
  kept : KeptSamples
  deriving DecidableEq, Repr

/-! ### Manoeuvre executor, homing unit -/

/-- The phase of a held escape (R105). -/
inductive ExePhase where
  | running | frozen | ending
  deriving DecidableEq, Repr

/-- The escape the executor holds, named by its entry epoch (R105). -/
structure HeldEscape where
  entry : Byte
  phase : ExePhase
  deriving DecidableEq, Repr

/-- The step timer: what it was started with and what remains, ms (R107). -/
structure StepTimer where
  run : Nat
  left : Nat
  deriving DecidableEq, Repr

/-- The manoeuvre executor (R105). -/
structure Executor where
  held : Option HeldEscape
  timer : Option StepTimer
  baseline : Option Nat
  deriving DecidableEq, Repr

/-- The homing unit's working state (R121). -/
structure Homing where
  guideView : Option Nat
  remainder : Nat
  reported : Bool
  ready : Bool
  lastPercent : Option Nat
  deriving DecidableEq, Repr

/-- An executor event on its way to the activity unit (R69, R117). -/
inductive Report where
  | completion (entry : Byte)
  | trap (entry : Byte)
  | stopStepStart
  deriving DecidableEq, Repr

/-! ### Drive command gate -/

/-- The reply codes, and STALE, in the numbering of section 11.2. -/
inductive Code where
  | done | clamped | deferred | notReady | busy | state | hazard | rank | absent | undefined | range | active
  | gated | node | interlock | stale
  deriving DecidableEq, Repr

/-- An order at the gate with its values as received (R143, R147). -/
inductive Order where
  | wheelSpeed (left right : Int)
  | bladeSpeed (selector rpm : Nat)
  | bladeStart
  | bladeStop
  | deckHeight (mm : Nat)
  | brake (drive : Nat)
  | startMow
  | goHome (endValue : Byte)
  | leaveDock
  | pause
  | resume
  | runManoeuvre (m : Nat)
  deriving DecidableEq, Repr

/-- The refusal record when it is not empty (R154). -/
structure RefusalRec where
  reason : Code
  cls : Nat
  kind : Byte
  detail : Nat
  further : Nat
  deriving DecidableEq, Repr

/-- The order in the deferred slot (R147). -/
structure DeferredOrder where
  order : Order
  tag : Byte
  rank : Nat
  epoch : Byte
  entry : Byte
  deriving DecidableEq, Repr

/-- The drive command gate (R147, R154). -/
structure GateState where
  refusal : Option RefusalRec
  deferred : Option DeferredOrder
  deriving DecidableEq, Repr

/-! ### Drive port master -/

/-- The fourteen tokens (R163). -/
inductive Token where
  | wheelSpeed (w : Wheel)
  | wheelBrake (w : Wheel)
  | bladeSpeed (b : Blade)
  | bladeStart (b : Blade)
  | bladeStop (b : Blade)
  | height
  deriving DecidableEq, Repr

/-- The state of a drive node (R162). -/
inductive DriveNode where
  | pending | active | faulted | unresponsive
  deriving DecidableEq, Repr

/-- The last status taken in (R161). -/
structure DriveStatus where
  tick : Int
  current : Nat
  speed : Int
  fault : Byte
  deriving DecidableEq, Repr

/-- A node record (R161). The stall condition is `stallRun = 4`. -/
structure DriveRec where
  state : DriveNode
  miss : Nat
  acc : Int
  stallRun : Nat
  overRun : Nat
  status : DriveStatus
  taken : Bool
  deriving DecidableEq, Repr

/-- The in-flight record (R166) with the frame it stands for. -/
structure InFlight where
  token : Token
  address : Byte
  frame : List Byte
  deriving DecidableEq, Repr

/-- The DP cycle (R166). -/
inductive DpCycle where
  | idle
  | sending (f : InFlight)
  | awaitReply (f : InFlight)
  deriving DecidableEq, Repr

/-- The drive port master. The four flags are the conditions as last handed over (R179). `raced` is the MODEL's own (log entry 41): the node whose
wait the last event ended by its reply timer, so that a reply which reached the master together with that expiry is still
taken in (R168). -/
structure DrivePort where
  records : Vector DriveRec 6
  queue : List Token
  cycle : DpCycle
  replyTimer : Option Nat
  refreshTimer : Option Nat
  stallLeft : Bool
  stallRight : Bool
  overload : Bool
  fault : Bool
  raced : Option Byte
  deriving DecidableEq, Repr

/-! ### Port interface, management unit, pins -/

/-- A reply in the reply queue (R189): what each of its frames repeats, the header epoch of the moment it was built
(R192), the number of the next frame to go out and the data of the frames still to go. -/
structure Reply where
  request : Byte
  tag : Byte
  code : Code
  offset : Nat
  epoch : Byte
  next : Nat
  chunks : List (List Byte)
  deriving DecidableEq, Repr

/-- What is going out on CP (R190). A reply frame that is the last of its reply frees the place when it is out. -/
inductive CpFrame where
  | reply (last : Bool)
  | notice (source : Fin 20)
  | mirror
  deriving DecidableEq, Repr

/-- The CP transmit line: free, carrying a frame, or idle after a frame that a RESTART cut off (R190). -/
inductive CpLine where
  | free
  | sending (what : CpFrame) (bytes : List Byte)
  | cutOff
  deriving DecidableEq, Repr

/-- The port interface. -/
structure PortState where
  rxCp : RxState
  rxSp : RxState
  rxDp : RxState
  line : CpLine
  replies : List Reply
  mirrors : List (List Byte)
  liveness : Option Nat
  deriving DecidableEq, Repr

/-- The phases of the device's life (R194). -/
inductive Startup where
  | loading | ready
  deriving DecidableEq, Repr

/-- Where the tables in use came from (R194). -/
inductive ImageState where
  | valid | defaults
  deriving DecidableEq, Repr

/-- What the memory holds, as far as the device last learnt it (R194). -/
inductive StoredMark where
  | good | bad | absent
  deriving DecidableEq, Repr

inductive OpKind where
  | store | load
  deriving DecidableEq, Repr

/-- The operation in flight: its kind, the tag its reply will repeat, its elapsed ms (R194). -/
structure Operation where
  kind : OpKind
  tag : Byte
  elapsed : Nat
  deriving DecidableEq, Repr

/-- The management unit (R194), with the bytes of the serial memory as far as the model follows them. -/
structure Mgmt where
  startup : Startup
  image : ImageState
  mark : StoredMark
  op : Option Operation
  memory : List Byte
  deriving DecidableEq, Repr

/-- The supply, the RESET and STOP inputs and STOP's press latch (R88, R202, section 11.5). -/
structure Pins where
  power : Bool
  resetLow : Bool
  stopLow : Bool
  stopLatch : Bool
  deriving DecidableEq, Repr

/-- The levels of the output pins (R202, R212). MCLK and MDIO outside a RESET belong to the memory port's signals, which log entry 32 leaves out:
`mclkHeldLow` and `mdioReleased` say that the device holds the one low and lets the other go. -/
structure OutputPins where
  dpde : Bool
  cptxIdle : Bool
  mclkHeldLow : Bool
  mdioReleased : Bool
  deriving DecidableEq, Repr

end Sys2Proof.Machine
end

