-- ==== Sys2Proof/Machine/Defaults.lean ====
section
/-! DEFINITION. The built-in tables (the defaults that stand beside each table in the manual) and the values the block
chapters give a block's runtime state at start-up and at RESTART. -/

namespace Sys2Proof.Machine

/-! ### Built-in tables -/

/-- R183: entry 0 uses every frame, the others are not valid. -/
def builtinIntake (i : Fin 16) : IntakeEntry :=
  if i = 0 then ⟨true, 0, 0, 7, .use⟩ else ⟨false, 0, 0, 0, .discard⟩

/-- R1, last column. -/
def builtinCoil (i : Fin 4) : CoilEntry :=
  match i with
  | 0 => ⟨0x30, .front, 64, 20, false⟩
  | 1 => ⟨0x31, .left, 64, 20, false⟩
  | 2 => ⟨0x32, .right, 64, 20, false⟩
  | 3 => ⟨0x33, .rear, 64, 20, false⟩

/-- The default codes of R5, chip i in bit i. -/
def builtinCode (i : Fin 8) : BitVec 16 :=
  match i with
  | 0 => 0x4697
  | 1 => 0x18EB
  | 2 => 0x4A3D
  | 3 => 0x9E53
  | 4 => 0x61B9
  | 5 => 0x2C7A
  | 6 => 0x8B2F
  | 7 => 0x1BC5

/-- R5, last column. -/
def builtinLoop (i : Fin 8) : LoopEntry :=
  { enabled := false
    cls := if i.val ≤ 3 then .perimeter else if i.val ≤ 5 then .island else .guide
    polarity := .plus, code := builtinCode i, refCoil := 0, tlock := 400, tlose := 200, lockCount := 3
    loseCount := 4, slip := 32, alpha := 4, fadeTime := 1000 }

/-- R22. -/
def builtinBreakpoint (i : Fin 8) : Breakpoint :=
  match i with
  | 0 => ⟨4000, 0⟩
  | 1 => ⟨2400, 10⟩
  | 2 => ⟨1600, 20⟩
  | 3 => ⟨1000, 40⟩
  | 4 => ⟨700, 60⟩
  | 5 => ⟨450, 100⟩
  | 6 => ⟨250, 160⟩
  | 7 => ⟨100, 300⟩

/-- R33. -/
def builtinBand (i : Fin 12) : Band :=
  match i with
  | 0 => ⟨20, 250⟩
  | 1 => ⟨50, 450⟩
  | 2 => ⟨100, 700⟩
  | 3 => ⟨1000, 1000⟩
  | 4 => ⟨100, 1000⟩
  | 5 => ⟨200, 600⟩
  | 6 => ⟨300, 350⟩
  | 7 => ⟨900, 200⟩
  | 8 => ⟨120, 1000⟩
  | 9 => ⟨160, 700⟩
  | 10 => ⟨200, 400⟩
  | 11 => ⟨1000, 250⟩

/-- R141, row by row; the columns are IDLE, MOW, FOLLOW, DOCKED, ESCAPE, HALT. -/
def builtinGateRow (row : Nat) : List GateCell :=
  let take (r : Nat) : GateCell := ⟨true, r, .take⟩
  let refuse : GateCell := ⟨true, 3, .refuse⟩
  match row with
  | 0 => [take 2, take 3, refuse, refuse, refuse, refuse]
  | 1 => [refuse, take 2, refuse, refuse, refuse, refuse]
  | 2 => [refuse, take 2, refuse, refuse, refuse, refuse]
  | 3 => [take 3, take 3, take 3, take 3, take 3, take 3]
  | 4 => [take 2, take 2, refuse, take 2, refuse, refuse]
  | 5 => [take 3, take 3, take 3, take 3, take 3, take 3]
  | 6 => [take 2, take 2, take 2, take 2, take 2, take 2]
  | 7 => [take 3, take 3, take 3, take 3, ⟨true, 3, .defer⟩, take 3]
  | 8 => [refuse, refuse, refuse, take 3, refuse, refuse]
  | 9 => [take 3, take 3, take 3, take 3, take 3, take 3]
  | 10 => [refuse, refuse, refuse, refuse, refuse, take 2]
  | _ => [take 1, take 1, take 1, take 1, take 1, take 1]

/-- R138: cell index = row × 6 + column. -/
def builtinGate (i : Fin 72) : GateCell :=
  (builtinGateRow (i.val / 6)).getD (i.val % 6) ⟨true, 3, .refuse⟩

/-- R157, last column; a field that does not apply to a drive is 0. -/
def builtinDrive (i : Fin 6) : DriveEntry :=
  match i with
  | 0 => ⟨false, 0x10, 400, 0, 3500, 1000⟩
  | 1 => ⟨false, 0x11, 400, 0, 3500, 1000⟩
  | 2 => ⟨false, 0x12, 0, 6000, 0, 3000⟩
  | 3 => ⟨false, 0x13, 0, 6000, 0, 3000⟩
  | 4 => ⟨false, 0x14, 0, 6000, 0, 3000⟩
  | 5 => ⟨false, 0x15, 0, 0, 0, 0⟩

/-- R80. -/
def builtinHazard (i : Fin 16) : HazardEntry :=
  match i.val with
  | 0 => ⟨true, .halt, 0, 500, 1000⟩
  | 1 => ⟨true, .halt, 0, 500, 1000⟩
  | 2 => ⟨true, .halt, 0, 500, 1000⟩
  | 3 => ⟨true, .escape, 0, 500, 200⟩
  | 4 => ⟨true, .escape, 4, 500, 200⟩
  | 5 => ⟨true, .escape, 3, 500, 0⟩
  | 6 => ⟨true, .escape, 3, 500, 0⟩
  | 7 => ⟨true, .slow, 0, 300, 3000⟩
  | 8 => ⟨true, .escape, 1, 500, 0⟩
  | 9 => ⟨true, .halt, 0, 500, 0⟩
  | 10 => ⟨true, .halt, 0, 500, 0⟩
  | 11 => ⟨true, .halt, 0, 500, 0⟩
  | 12 => ⟨true, .halt, 0, 500, 0⟩
  | 13 => ⟨true, .ret, 0, 500, 10000⟩
  | 14 => ⟨true, .ret, 0, 500, 0⟩
  | _ => ⟨true, .halt, 0, 500, 0⟩

/-- R104: the step counts of m0 to m7. -/
def builtinCount (m : Fin 8) : Nat := if m.val ≤ 4 then 2 else 0

/-- R104: sources 5, 6 and 8. -/
def builtinMask : BitVec 16 := 0x0160

/-- R104: step s of manoeuvre m is number 8 × m + s. -/
def builtinStep (i : Fin 64) : EscStep :=
  match i.val with
  | 0 => ⟨-300, -300, .dist, 250, false, builtinMask⟩
  | 1 => ⟨250, -250, .turn, 900, false, builtinMask⟩
  | 8 => ⟨-300, -300, .dist, 300, false, builtinMask⟩
  | 9 => ⟨-200, 200, .turn, 1200, false, builtinMask⟩
  | 16 => ⟨-250, -250, .dist, 600, true, builtinMask⟩
  | 17 => ⟨200, -200, .turn, 1800, false, builtinMask⟩
  | 24 => ⟨-400, -400, .time, 800, false, builtinMask⟩
  | 25 => ⟨300, -300, .turn, 450, false, builtinMask⟩
  | 32 => ⟨-300, -300, .dist, 250, false, builtinMask⟩
  | 33 => ⟨-250, 250, .turn, 900, false, builtinMask⟩
  | _ => ⟨0, 0, .dist, 1, false, builtinMask⟩

/-- R119, last column. -/
def builtinHome : HomeTable :=
  { perimeter := 0, guide := 6, sense := .plus, seekOffset := 20, window := 50, kp := 64, turnLimit := 250
    seekBase := 500, trackBase := 450, approachBase := 200, capture := 600, approach := 2400, dockMv := 20000
    dockConfirm := 3, maxFollow := 400, undock := 2, outside := 20, resumeLevel := 90, capIdle := 500
    capMow := 1000, capFollow := 600, capEscape := 600, stepLimit := 5000, chainLimit := 3 }

/-- R171, R187. -/
def builtinTiming : TimingTable := ⟨10, 50, 1, 300⟩

/-- R84, last column. -/
def builtinSensor : SensorTable :=
  { incline := ⟨false, 0x38, 20⟩, contact := ⟨false, 0x39, 20⟩, power := ⟨false, 0x3A, 200⟩
    rain := ⟨false, 0x3B, 500⟩, tilt := 350, rainLevel := 120, returnLevel := 25, overload := 220
    wireDelay := 2000 }

/-- The built-in tables (scope section 6, Defaults). -/
def builtinTables : Tables :=
  { intake := .ofFn builtinIntake, coil := .ofFn builtinCoil, loop := .ofFn builtinLoop
    dist := .ofFn builtinBreakpoint, bands := .ofFn builtinBand, gate := .ofFn builtinGate
    drive := .ofFn builtinDrive, hazard := .ofFn builtinHazard, counts := .ofFn builtinCount
    steps := .ofFn builtinStep, home := builtinHome, timing := builtinTiming, sensor := builtinSensor }

/-! ### Runtime state at start-up and RESTART -/

/-- A tracker as start-up, RESTART or a loop entry write leaves it (R7, R10). -/
def freshTracker (enabled : Bool) : Tracker :=
  ⟨if enabled then .search else .off, 0, 0, 0, 0, none⟩

/-- An emptied cell (R19). -/
def emptyCell : EstCell := ⟨.empty, 0, 0, 0, .plus, 0, 0⟩

/-- A coil's intake record at start (R3). -/
def freshIntake : CoilIntake := ⟨none, 0, false⟩

/-- The decoder at start (R32). -/
def freshDecoder (t : Tables) : Decoder :=
  { trackers := .ofFn fun l => freshTracker t.loop[l].enabled
    cells := .replicate 32 emptyCell, intakes := .replicate 4 freshIntake
    n := none, outside := false, wireLost := true }

/-- Every requested and every held value 0 (R41). -/
def noValues : DriveValues := ⟨0, 0, ⟨0, 0, 0⟩, 0⟩

/-- The envelope unit before its caps are formed at READY. -/
def blankEnvelope : Envelope :=
  { n := none, pitch := 0, roll := 0, percents := ⟨0, 0, 0⟩, caps := ⟨0, 0, 0, 0, 0⟩, k := 0
    req := noValues, held := noValues }

/-- The stack [IDLE] (R50). -/
def idleStack : Stack := ⟨none, none, none, none⟩

/-- The activity unit at start (R75). -/
def freshActivity : Activity := ⟨idleStack, 0, false, false, false⟩

/-- A source record at start (R76). -/
def freshSource : SrcRec := ⟨false, .quiet, none, false, false⟩

/-- The kept samples, none taken (R100). The values behind a clear taken mark are 0 (log entry 2). -/
def noSamples : KeptSamples :=
  ⟨0, false, ⟨0, 0, 0⟩, false, ⟨0, 0, 0, 0, 0, false⟩, false, 0, false⟩

/-- The monitor with every source QUIET, no mark, no node and no timer (R76, R96, R100). -/
def quietMonitor : HazardMonitor :=
  { sources := .replicate 16 freshSource, pending := 0, nodes := .replicate 8 none, wireDelay := none
    kept := noSamples }

/-- The executor holds no escape (R105). -/
def freshExecutor : Executor := ⟨none, none, none⟩

/-- The homing unit's working state at start (R121). -/
def freshHoming : Homing := ⟨none, 0, false, false, none⟩

/-- Empty refusal record, empty deferred slot (R160). -/
def freshGate : GateState := ⟨none, none⟩

/-- A node record at reset (R161). -/
def freshDriveRec : DriveRec := ⟨.pending, 0, 0, 0, 0, ⟨0, 0, 0, 0⟩, false⟩

/-- The drive port master, silent and empty (R178). -/
def quietDrivePort : DrivePort :=
  { records := .replicate 6 freshDriveRec, queue := [], cycle := .idle, replyTimer := none, refreshTimer := none
    stallLeft := false, stallRight := false, overload := false, fault := false, raced := none }

/-- The port interface at start-up (R193). -/
def freshPorts : PortState :=
  { rxCp := .idle, rxSp := .idle, rxDp := .idle, line := .free, replies := [], mirrors := [], liveness := none }

end Sys2Proof.Machine
end

