-- ==== Sys2Proof/Machine/State.lean ====
section
/-! DEFINITION. The state of the machine, block by block, its stops and its reset. -/

namespace Sys2Proof.Machine

/-- The state: the tables in use, the eleven blocks, the pins, the executor's events on their way to the activity unit,
the index of the next free byte (the MODEL's own field, log entry 6) and the queue of waiting commands. -/
structure State where
  tables : Tables
  dec : Decoder
  env : Envelope
  act : Activity
  haz : HazardMonitor
  exe : Executor
  home : Homing
  gate : GateState
  dp : DrivePort
  port : PortState
  mgmt : Mgmt
  pins : Pins
  reports : List Report
  fresh : Nat
  pending : List Instr
  deriving DecidableEq, Repr

/-- The faults of the machine: none. The manual names no event that stops the device with a fault; every command
has an effect, be it to change nothing. -/
inductive Fault where
  deriving DecidableEq, Repr

/-- The refusals of the model. -/
inductive Refusal where
  /-- Raised by an arm of `exec` whose command has no meaning yet. Safe. No arm raises it. -/
  | notModelled (mnemonic : String)
  deriving DecidableEq, Repr

/-! ### The update of each block -/

def State.setTables (s : State) (x : Tables) : State := { s with tables := x }
def State.setDec (s : State) (x : Decoder) : State := { s with dec := x }
def State.setEnv (s : State) (x : Envelope) : State := { s with env := x }
def State.setAct (s : State) (x : Activity) : State := { s with act := x }
def State.setHaz (s : State) (x : HazardMonitor) : State := { s with haz := x }
def State.setExe (s : State) (x : Executor) : State := { s with exe := x }
def State.setHome (s : State) (x : Homing) : State := { s with home := x }
def State.setGate (s : State) (x : GateState) : State := { s with gate := x }
def State.setDp (s : State) (x : DrivePort) : State := { s with dp := x }
def State.setPort (s : State) (x : PortState) : State := { s with port := x }
def State.setMgmt (s : State) (x : Mgmt) : State := { s with mgmt := x }
def State.setPins (s : State) (x : Pins) : State := { s with pins := x }
def State.setReports (s : State) (x : List Report) : State := { s with reports := x }
def State.setFresh (s : State) (x : Nat) : State := { s with fresh := x }
def State.setPending (s : State) (x : List Instr) : State := { s with pending := x }

/-- The machine as power-on or a rise of RESET leaves it: LOADING, every block at its start value, no timer running,
nothing pending (R193, R194, R202). The tables are the built-in ones until the image check puts tables in place, the
image state and the stored image mark are those of a device without an image, and the button is not pressed
(DESIGN CHOICE, log entries 1 and 2). -/
def State.reset : State :=
  { tables := builtinTables
    dec := freshDecoder builtinTables
    env := blankEnvelope
    act := freshActivity
    haz := quietMonitor
    exe := freshExecutor
    home := freshHoming
    gate := freshGate
    dp := quietDrivePort
    port := freshPorts
    mgmt := { startup := .loading, image := .defaults, mark := .absent, op := none, memory := [] }
    pins := { power := true, resetLow := false, stopLow := false, stopLatch := false }
    reports := []
    fresh := 0
    pending := [] }

end Sys2Proof.Machine
end

