-- ==== Sys2Proof/Machine/Ops.lean ====
section
/-! DEFINITION. The named operations every block uses: reading the stack and the tables, the notice marks (R96), the
drive output queue (R163, R164), the refusal record (R154). -/

namespace Sys2Proof.Machine

/-! ### Life of the device -/

/-- Powered, and RESET not low: the device acts on events (R202). -/
def State.live (s : State) : Bool := s.pins.power && !s.pins.resetLow

/-- The device is live and READY (R194). -/
def State.isReady (s : State) : Bool := s.live && s.mgmt.startup = .ready

/-! ### The activity stack -/

/-- The kind of the top record (scope section 4, top). -/
def Stack.topKind (k : Stack) : Kind :=
  if k.halt.isSome then .halt
  else if k.esc.isSome then .escape
  else match k.home with
    | some (.follow _) => .follow
    | some (.docked _) => .docked
    | none => if k.mow.isSome then .mow else .idle

/-- The records, bottom to top (R50). -/
def Stack.records (k : Stack) : List ActRecord :=
  [.idle] ++ (k.mow.map ActRecord.mow).toList ++
    (match k.home with
      | some (.follow r) => [.follow r]
      | some (.docked r) => [.docked r]
      | none => []) ++
    (k.esc.map ActRecord.escape).toList ++ (k.halt.map ActRecord.halt).toList

/-- The depth, 1 to 5 (R50). -/
def Stack.depth (k : Stack) : Nat := k.records.length

/-- The kind of a record. -/
def ActRecord.kind : ActRecord → Kind
  | .idle => .idle
  | .mow _ => .mow
  | .follow _ => .follow
  | .docked _ => .docked
  | .escape _ => .escape
  | .halt _ => .halt

/-- The place of a kind in the stack order, FOLLOW and DOCKED sharing one (R50). -/
def Kind.place : Kind → Nat
  | .idle => 0
  | .mow => 1
  | .follow => 2
  | .docked => 2
  | .escape => 3
  | .halt => 4

/-- The code of a kind, which is also its gate column (R138, section 11.3). -/
def Kind.code : Kind → Nat
  | .idle => 0
  | .mow => 1
  | .follow => 2
  | .docked => 3
  | .escape => 4
  | .halt => 5

/-- The kind on top. -/
def State.top (s : State) : Kind := s.act.stack.topKind

/-- The FOLLOW record in the stack, if any. -/
def Stack.follow? (k : Stack) : Option FollowRec :=
  match k.home with
  | some (.follow r) => some r
  | _ => none

/-- The DOCKED record in the stack, if any. -/
def Stack.docked? (k : Stack) : Option DockedRec :=
  match k.home with
  | some (.docked r) => some r
  | _ => none

/-- Replace the stack. -/
def State.setStack (s : State) (k : Stack) : State := s.setAct { s.act with stack := k }

/-- The FOLLOW record when FOLLOW is on top: the homing unit is engaged (R122). -/
def State.engaged? (s : State) : Option FollowRec :=
  if s.top = .follow then s.act.stack.follow? else none

/-- Table writes and loads are taken only under these tops (R196). -/
def Kind.admitsWrites : Kind → Bool
  | .idle | .docked | .halt => true
  | .mow | .follow | .escape => false

/-! ### Drives -/

def PerBlade.get (x : PerBlade) : Blade → Nat
  | .bladeA => x.a
  | .bladeB => x.b
  | .bladeC => x.c

def PerBlade.set (x : PerBlade) (i : Blade) (v : Nat) : PerBlade :=
  match i with
  | .bladeA => { x with a := v }
  | .bladeB => { x with b := v }
  | .bladeC => { x with c := v }

/-- The blades in order. -/
def Blade.all : List Blade := [.bladeA, .bladeB, .bladeC]

/-- The logical drives in order (R157). -/
def Drive.all : List Drive :=
  [.wheel .left, .wheel .right, .blade .bladeA, .blade .bladeB, .blade .bladeC, .deck]

/-- The drive table entry of a drive. -/
def Tables.driveOf (t : Tables) (d : Drive) : DriveEntry := t.drive[d.idx]

/-- A logical drive is mapped while its entry is present (R157). -/
def Tables.mapped (t : Tables) (d : Drive) : Bool := (t.driveOf d).present

/-- The mapped drive an address belongs to (R167). -/
def Tables.driveAt (t : Tables) (a : Byte) : Option Drive :=
  Drive.all.find? fun d => t.mapped d && (t.driveOf d).node = a

/-- The step entry s of manoeuvre m (R101). -/
def Tables.step (t : Tables) (m i : Fin 8) : EscStep := t.steps[8 * m.val + i.val]

/-- The front coil: the lowest present entry whose role is FRONT (R1). -/
def Tables.frontCoil (t : Tables) : Option (Fin 4) :=
  (List.finRange 4).find? fun c => t.coil[c].present && t.coil[c].role = .front

/-! ### The drive output queue -/

/-- The drive a token names (R163). -/
def Token.drive : Token → Drive
  | .wheelSpeed w | .wheelBrake w => .wheel w
  | .bladeSpeed b | .bladeStart b | .bladeStop b => .blade b
  | .height => .deck

/-- A BRAKE or STOP token, which overtakes the others (R164). -/
def Token.urgent : Token → Bool
  | .wheelBrake _ | .bladeStop _ => true
  | .wheelSpeed _ | .bladeSpeed _ | .bladeStart _ | .height => false

/-- R163: the token joins at the end unless it is there already or its drive is unmapped. -/
def queueToken (t : Token) (s : State) : State :=
  if t ∈ s.dp.queue ∨ s.tables.mapped t.drive = false then s
  else s.setDp { s.dp with queue := s.dp.queue ++ [t] }

/-- Tokens queued one after another. -/
def queueTokens (ts : List Token) (s : State) : State := ts.foldl (fun s t => queueToken t s) s

/-! ### Notices and refusals -/

/-- The pending mark of a notice source is set (R96). -/
def markNotice (i : Fin 20) (s : State) : State :=
  s.setHaz { s.haz with pending := s.haz.pending ||| BitVec.twoPow 20 i.val }

/-- A hazard source's notice source number (R96). -/
def sourceNotice (i : Fin 16) : Fin 20 := ⟨i.val, by omega⟩

/-- The codes in the numbering of section 11.2. -/
def Code.num : Code → Nat
  | .done => 0
  | .clamped => 1
  | .deferred => 2
  | .notReady => 3
  | .busy => 4
  | .state => 5
  | .hazard => 6
  | .rank => 7
  | .absent => 8
  | .undefined => 9
  | .range => 10
  | .active => 11
  | .gated => 12
  | .node => 13
  | .interlock => 14
  | .stale => 15

/-- DONE, CLAMPED, DEFERRED and NOT-READY are no refusals (R154). -/
def Code.refuses : Code → Bool
  | .done | .clamped | .deferred | .notReady => false
  | .busy | .state | .hazard | .rank | .absent | .undefined | .range | .active | .gated | .node | .interlock
  | .stale => true

/-- R154, R155: a refusal fills the empty record and makes REFUSAL pending, or raises the count of further ones, which
stays at 255. -/
def enterRefusal (reason : Code) (cls : Nat) (kind : Byte) (detail : Nat) (s : State) : State :=
  match s.gate.refusal with
  | none => markNotice 17 (s.setGate { s.gate with refusal := some ⟨reason, cls, kind, detail, 0⟩ })
  | some r =>
    s.setGate { s.gate with
      refusal := some { r with further := if r.further < 255 then r.further + 1 else r.further } }

/-- The class numbers of section 11.2 the gate records. -/
def clsDriveCommand : Nat := 5
def clsMgmtRequest : Nat := 7

end Sys2Proof.Machine
end

