-- ==== Sys2Proof/Machine/Envelope.lean ====
section
/-! DEFINITION. The envelope unit (chapter 2): the source caps, the effective cap K, the held values, and the one derivation
that forms them all anew and queues a token for each held value that changed (R45). -/

namespace Sys2Proof.Machine

/-- Band j of group g of the envelope band table: 0 proximity, 1 slope, 2 load (R33). -/
def Tables.band (t : Tables) (g : Fin 3) (j : Fin 4) : Band := t.bands[4 * g.val + j.val]

/-- The cap of the first band whose bound the value is below, else of band 3 (R33). -/
def Tables.bandCap (t : Tables) (g : Fin 3) (v : Nat) : Nat :=
  if v < (t.band g 0).bound then (t.band g 0).cap
  else if v < (t.band g 1).bound then (t.band g 1).cap
  else if v < (t.band g 2).bound then (t.band g 2).cap
  else (t.band g 3).cap

/-- R35: none and every negative N fall in band 0. -/
def proximityCap (t : Tables) : Option Int → Nat
  | none => (t.band 0 0).cap
  | some n => if n < 0 then (t.band 0 0).cap else t.bandCap 0 n.toNat

/-- The larger of |pitch| and |roll| (R36). -/
def slopeOf (pitch roll : Int) : Nat := max pitch.natAbs roll.natAbs

/-- The inclination node is FRESH (R36). -/
def HazardMonitor.inclineFresh (h : HazardMonitor) : Bool :=
  match h.nodes[4] with
  | some r => r.state = .fresh
  | none => false

/-- R36: the slope value's band while the inclination node is FRESH, else the band 3 cap. -/
def slopeCap (t : Tables) (fresh : Bool) (pitch roll : Int) : Nat :=
  if fresh then t.bandCap 1 (slopeOf pitch roll) else (t.band 1 3).cap

/-- R37: the largest kept percent among the mapped blades, 0 when none is mapped. -/
def loadValue (t : Tables) (p : PerBlade) : Nat :=
  Blade.all.foldl (fun m b => if t.mapped (.blade b) then max m (p.get b) else m) 0

/-- R37: the load value's band while blade-enable is set, else 1000. -/
def loadCap (t : Tables) (enable : Bool) (p : PerBlade) : Nat :=
  if enable then t.bandCap 2 (loadValue t p) else 1000

/-- R38: a source counts while its response is SLOW and its state RAISED or HELD. -/
def slowCounts (t : Tables) (h : HazardMonitor) (i : Fin 16) : Bool :=
  t.hazard[i].response = .slow && h.sources[i].state ≠ .quiet

/-- R38: the smallest SLOW cap among the sources that count, else 1000. -/
def hazardCap (t : Tables) (h : HazardMonitor) : Nat :=
  (List.finRange 16).foldl (fun m i => if slowCounts t h i then min m t.hazard[i].slowCap else m) 1000

/-- R39: the cap of the top activity; DOCKED and HALT are fixed at 0. -/
def activityCap (t : Tables) : Kind → Nat
  | .idle => t.home.capIdle
  | .mow => t.home.capMow
  | .follow => t.home.capFollow
  | .docked => 0
  | .escape => t.home.capEscape
  | .halt => 0

/-- R40: the smallest of the five source caps. -/
def Caps.effective (c : Caps) : Nat :=
  min c.proximity (min c.slope (min c.load (min c.hazard c.activity)))

/-- The five source caps from their inputs as they stand. The activity cap is set at its own events alone (`setActivityCap`); a derivation keeps
it (R39, R54). -/
def formCaps (s : State) : Caps :=
  { proximity := proximityCap s.tables s.env.n
    slope := slopeCap s.tables s.haz.inclineFresh s.env.pitch s.env.roll
    load := loadCap s.tables s.act.bladeEnable s.env.percents
    hazard := hazardCap s.tables s.haz
    activity := s.env.caps.activity }

/-- R42: the requested pair scaled so that the faster wheel does not exceed K, truncated toward zero. -/
def scaleWheels (a b : Int) (k : Nat) : Int × Int :=
  let m := max a.natAbs b.natAbs
  if m ≤ k then (a, b) else ((a * k).tdiv m, (b * k).tdiv m)

/-- R43: the held rpm of a blade. -/
def heldBlade (t : Tables) (enable : Bool) (req : PerBlade) (b : Blade) : Nat :=
  if enable then min (req.get b) (t.driveOf (.blade b)).maximum else 0

/-- R44: the held height, 0 for none. -/
def heldDeck (req : Nat) : Nat := if req = 0 then 0 else clampNat 20 100 req

/-- R42 to R44: the held values from the requested values and the limits. -/
def formHeld (s : State) (k : Nat) : DriveValues :=
  let w := scaleWheels s.env.req.left s.env.req.right k
  let blade := heldBlade s.tables s.act.bladeEnable s.env.req.blades
  { left := w.1, right := w.2, blades := ⟨blade .bladeA, blade .bladeB, blade .bladeC⟩, deck := heldDeck s.env.req.deck }

/-- R45: the token of each held value that changed; a held height of 0 has none (R44). Where one derivation changes several, they join in the
order LEFT, RIGHT, BLADE-A to BLADE-C, DECK (DESIGN CHOICE, log entry 43). -/
def changedTokens (old new : DriveValues) : List Token :=
  (if old.left = new.left then [] else [.wheelSpeed .left]) ++
  (if old.right = new.right then [] else [.wheelSpeed .right]) ++
  (Blade.all.filter fun b => old.blades.get b ≠ new.blades.get b).map Token.bladeSpeed ++
  (if old.deck = new.deck ∨ new.deck = 0 then [] else [.height])

/-- R40, R45: every source cap, K and every held value formed anew from the inputs as they stand, and a token queued for
each held value that changed. Run after every change of an input; where nothing changed it changes nothing. -/
def refresh (s : State) : State :=
  let caps := formCaps s
  let held := formHeld s caps.effective
  queueTokens (changedTokens s.env.held held) (s.setEnv { s.env with caps := caps, k := caps.effective, held := held })

/-- R39: the activity cap is set from the top and the home table: when the final top of an event is handed over (R54), at a write of the home table
and at READY. The derivation is the caller's. -/
def setActivityCap (s : State) : State :=
  s.setEnv { s.env with caps := { s.env.caps with activity := activityCap s.tables s.top } }

/-- A writer sets the requested wheel pair; a derivation follows (R46, R47). -/
def writeWheels (l r : Int) (s : State) : State :=
  refresh (s.setEnv { s.env with req := { s.env.req with left := l, right := r } })

/-- A change of blade-enable is an event at the envelope unit (R43, R55). Where the same event changes the top, it comes before the top is
handed over, and its derivation keeps the activity cap of the top handed over last (DESIGN CHOICE, log entry 37). -/
def setBladeEnable (b : Bool) (s : State) : State :=
  if s.act.bladeEnable = b then s else refresh (s.setAct { s.act with bladeEnable := b })

/-- A new N is handed over (R35). -/
def takeN (n : Option Int) (s : State) : State := refresh (s.setEnv { s.env with n := n })

/-- The requested rpm of the blades named (R46). -/
def writeBlades (bs : List Blade) (rpm : Nat) (s : State) : State :=
  refresh (s.setEnv { s.env with
    req := { s.env.req with blades := bs.foldl (fun p b => p.set b rpm) s.env.req.blades } })

/-- The requested height (R46). -/
def writeDeck (mm : Nat) (s : State) : State :=
  refresh (s.setEnv { s.env with req := { s.env.req with deck := mm } })

/-- A blade's load percent is handed over (R37). -/
def takePercent (b : Blade) (p : Nat) (s : State) : State :=
  refresh (s.setEnv { s.env with percents := s.env.percents.set b p })

end Sys2Proof.Machine
end

