-- ==== Sys2Proof/Machine/Flags.lean ====
section
/-! DEFINITION. The conditions: how each is formed from its input (R89 to R92, R28, R29), and how a change of a condition
moves its source record (R77 to R79), short of the response. -/

namespace Sys2Proof.Machine

/-- The last-but-one step of a condition with hysteresis of 20 below its limit (R90, R92). -/
def hysteresis (old : Bool) (limit v : Nat) : Bool :=
  if limit ≤ v then true else if v + 20 < limit then false else old

/-- BUMP-LEFT, BUMP-RIGHT and LIFT from a contact byte (R89). -/
def contactLift (b : Byte) : Bool := b.getLsbD 2 || b.getLsbD 3
def contactBumpLeft (b : Byte) : Bool := b.getLsbD 0
def contactBumpRight (b : Byte) : Bool := b.getLsbD 1

/-- BATTERY-LOW: below the return level while no DOCKED record stands; false while no power sample has been taken since READY (R91). The level is
that of the table as it stands, also when DOCKED leaves the stack after a write of the level and before the next power sample: R84 lets a new
threshold act at the next sample that forms the condition, R91 forms it anew there from the last percent (DESIGN CHOICE, log entry 52). -/
def batteryCond (s : State) : Bool :=
  s.haz.kept.powerTaken && decide (s.haz.kept.power.percent < s.tables.sensor.returnLevel) &&
    s.act.stack.docked?.isNone

/-- SENSOR-SILENT: some present sensor node is SILENT (R87). -/
def sensorSilentCond (h : HazardMonitor) : Bool :=
  (List.finRange 8).any fun n => match h.nodes[n] with
    | some r => r.state = .silent
    | none => false

/-! ### Source records -/

/-- Replace a source record. -/
def setSource (i : Fin 16) (r : SrcRec) (s : State) : State :=
  s.setHaz { s.haz with sources := s.haz.sources.set i r }

/-- A state change of source i: its record, its notice mark (and the raised-since-notice mark at a change to RAISED), and the hazard cap formed
again (R79). -/
def moveSource (i : Fin 16) (st : SrcState) (hold : Option Nat) (s : State) : State :=
  let r := s.haz.sources[i]
  refresh (markNotice (sourceNotice i) (setSource i
    { r with state := st, hold := hold, raisedSince := r.raisedSince || st = .raised } s))

/-- R77: a change of the condition of source i, the response left out. The second part says that the response fires. -/
def hazardMove (i : Fin 16) (v : Bool) (s : State) : State × Bool :=
  let r := s.haz.sources[i]
  if r.cond = v then (s, false)
  else
    let s1 := setSource i { r with cond := v } s
    if s.tables.hazard[i].enabled = false then (s1, false)
    else match r.state, v with
      | .quiet, true => (moveSource i .raised none s1, true)
      | .raised, false =>
        let hold := s.tables.hazard[i].hold
        (if hold = 0 then moveSource i .quiet none s1 else moveSource i .held (some hold) s1, false)
      | .held, true => (moveSource i .raised none s1, false)
      | .quiet, false | .raised, true | .held, false => (s1, false)

/-- The owed mark of source i (R83). -/
def setOwed (i : Fin 16) (v : Bool) (s : State) : State :=
  setSource i { s.haz.sources[i] with owed := v } s

/-- The state of a source. -/
def State.srcState (s : State) (i : Fin 16) : SrcState := s.haz.sources[i].state

/-! The numbers of the sources (R80). -/
def srcStop : Fin 16 := 0
def srcLift : Fin 16 := 1
def srcTilt : Fin 16 := 2
def srcBumpLeft : Fin 16 := 3
def srcBumpRight : Fin 16 := 4
def srcStallLeft : Fin 16 := 5
def srcStallRight : Fin 16 := 6
def srcOverload : Fin 16 := 7
def srcOutside : Fin 16 := 8
def srcWireLost : Fin 16 := 9
def srcLinkSilent : Fin 16 := 10
def srcDriveFault : Fin 16 := 11
def srcSensorSilent : Fin 16 := 12
def srcRain : Fin 16 := 13
def srcBatteryLow : Fin 16 := 14
def srcTrapped : Fin 16 := 15

end Sys2Proof.Machine
end

