-- ==== Sys2Proof/Machine/Executor.lean ====
section
/-! DEFINITION. The manoeuvre executor (chapter 5): taking up an escape, starting a step, its progress, its end and its
failure. -/

namespace Sys2Proof.Machine

/-- An executor event goes on its way to the activity unit (R117). -/
def addReport (r : Report) (s : State) : State := s.setReports (s.reports ++ [r])

/-- Replace the ESCAPE record. -/
def setEscape (r : EscRec) (s : State) : State := s.setStack { s.act.stack with esc := some r }

/-- How long the step timer runs: the amount for TIME, the step time limit for DIST and TURN (R107). -/
def stepRun (t : Tables) (st : EscStep) : Nat :=
  match st.kind with
  | .time => st.amount
  | .dist | .turn => t.home.stepLimit

/-- Step `i` of the ESCAPE record starts (R107). A STOP step's start goes to the activity unit as an event of its own (R117). -/
def startStep (i : Fin 8) (s : State) : State :=
  match s.act.stack.esc with
  | none => s
  | some r =>
    let st := s.tables.step r.man i
    let run := stepRun s.tables st
    let s1 := writeWheels st.left st.right (setEscape { r with step := i, progress := 0, elapsed := 0 } s)
    let s2 := if st.stop then addReport .stopStepStart s1 else s1
    s2.setExe { s2.exe with
      timer := some ⟨run, run⟩, baseline := if st.kind = .turn then none else s2.exe.baseline }

/-- The ESCAPE record whose step is running: held in RUNNING and standing in the stack (R105). -/
def State.running? (s : State) : Option EscRec :=
  match s.exe.held, s.act.stack.esc with
  | some h, some r => if h.phase = .running ∧ h.entry = r.entry then some r else none
  | _, _ => none

/-- The held escape goes to a phase and its timer stops. -/
def stopEscape (h : HeldEscape) (s : State) : State := s.setExe { s.exe with held := some h, timer := none }

/-- The executor drops its escape (R106). -/
def dropEscape (s : State) : State := s.setExe { s.exe with held := none, timer := none }

/-- The running step has ended: the next one starts, or completion is reported (R112). -/
def endStep (r : EscRec) (s : State) : State :=
  if r.step.val + 1 < s.tables.counts[r.man] then startStep (r.step + 1) s
  else addReport (.completion r.entry) (stopEscape ⟨r.entry, .ending⟩ s)

/-- The running step has failed: the manoeuvre restarts, or a trap is reported (R113). -/
def failStep (r : EscRec) (s : State) : State :=
  if r.chain + 1 < s.tables.home.chainLimit then startStep 0 (setEscape { r with chain := r.chain + 1 } s)
  else addReport (.trap r.entry) (stopEscape ⟨r.entry, .ending⟩ s)

/-- Progress is added to the running step, which ends at `target` (R108, R110). -/
def addProgress (r : EscRec) (amount target : Nat) (s : State) : State :=
  let r' := { r with progress := r.progress + amount }
  let s1 := setEscape r' s
  if target ≤ r'.progress then endStep r' s1 else s1

/-- An odometry update of a wheel reaches the executor (R108). -/
def odometryToEscape (u : Int) (s : State) : State :=
  match s.running? with
  | none => s
  | some r =>
    let st := s.tables.step r.man r.step
    match st.kind with
    | .dist => addProgress r u.natAbs (2 * st.amount) s
    | .time | .turn => s

/-- The change of heading brought into −1800 to +1799 (R110). -/
def headingChange (heading baseline : Nat) : Int :=
  let d : Int := (heading : Int) - baseline
  if d < -1800 then d + 3600 else if 1799 < d then d - 3600 else d

/-- A heading reaches the executor (R110). -/
def headingToEscape (heading : Nat) (s : State) : State :=
  match s.running? with
  | none => s
  | some r =>
    let st := s.tables.step r.man r.step
    match st.kind with
    | .dist | .time => s
    | .turn =>
      let h := if 3599 < heading then heading % 3600 else heading
      match s.exe.baseline with
      | none => s.setExe { s.exe with baseline := some h }
      | some b => addProgress r (headingChange h b).natAbs st.amount (s.setExe { s.exe with baseline := some h })

/-- The step timer expires (R109, R111): a TIME step ends, a DIST or TURN step fails. -/
def expireStep (s : State) : State :=
  match s.running?, s.exe.timer with
  | some r, some t =>
    let r' := { r with elapsed := t.run }
    let s1 := (setEscape r' s).setExe { s.exe with timer := none }
    match (s.tables.step r.man r.step).kind with
    | .time => endStep r' s1
    | .dist | .turn => failStep r' s1
  | _, _ => s

/-- The executor is handed the top after a top change (R106, R116). -/
def topToExecutor (s : State) : State :=
  match s.act.stack.halt, s.act.stack.esc with
  | none, some r =>
    match s.exe.held with
    | some h => if h.entry = r.entry then s else startStep 0 ((dropEscape s).setExe ⟨some ⟨r.entry, .running⟩, none, s.exe.baseline⟩)
    | none => startStep 0 (s.setExe ⟨some ⟨r.entry, .running⟩, none, s.exe.baseline⟩)
  | some _, some r =>
    match s.exe.held with
    | some h => if h.entry = r.entry then stopEscape ⟨h.entry, .frozen⟩ s else dropEscape s
    | none => s
  | _, none => dropEscape s

end Sys2Proof.Machine
end

