-- ==== Sys2Proof/Machine/HomingOps.lean ====
section
/-! DEFINITION. What the homing unit does short of a stack change (chapter 6): the ready flag, settling a FOLLOW record, the
loss of a wire, steering on a hand-off, the docked charge watch. -/

namespace Sys2Proof.Machine

/-- Replace the FOLLOW record. -/
def setFollow (r : FollowRec) (s : State) : State := s.setStack { s.act.stack with home := some (.follow r) }

/-- Replace the DOCKED record. -/
def setDocked (r : DockedRec) (s : State) : State := s.setStack { s.act.stack with home := some (.docked r) }

/-- R133: the ready flag as it should stand. -/
def readyCond (s : State) : Bool :=
  s.act.stack.docked?.isSome && s.act.stack.mow.isSome &&
    match s.home.lastPercent with
    | some p => decide (s.tables.home.resumeLevel ≤ p)
    | none => false

/-- R133, R134: the ready flag is formed anew; a change makes CHARGE pending. -/
def formReady (s : State) : State :=
  if s.home.ready = readyCond s then s else markNotice 19 (s.setHome { s.home with ready := readyCond s })

/-- The guide view becomes none (R121). -/
def dropGuideView (s : State) : State := s.setHome { s.home with guideView := none }

/-- The report mark is cleared. -/
def clearReported (s : State) : State := s.setHome { s.home with reported := false }

/-- The tracker of a loop contributes: LOCKED or FADING (R10). -/
def Tracker.following (t : Tracker) : Bool :=
  match t.state with
  | .locked | .fading => true
  | .off | .search => false

/-- R123: the phase and the loop of a FOLLOW record that is on top, the count 0. -/
def settledFollow (s : State) (r : FollowRec) : FollowRec :=
  let again : Bool := match s.home.guideView with
    | some f => s.dec.trackers[s.tables.home.guide].state = .locked && decide (s.tables.home.capture ≤ f)
    | none => false
  match r.phase with
  | .seek => { r with loop := s.tables.home.perimeter, confirm := 0 }
  | .track | .approach | .contact =>
    if again then { r with phase := .track, loop := s.tables.home.guide, confirm := 0 }
    else { r with phase := .seek, loop := s.tables.home.perimeter, confirm := 0 }

/-- FOLLOW has become the top (R123). -/
def settleFollow (s : State) : State :=
  match s.engaged? with
  | none => s
  | some r => clearReported (setFollow (settledFollow s r) s)

/-- R127: loop l has left LOCKED and FADING. -/
def loopLost (l : Fin 8) (s : State) : State :=
  let s1 := if l = s.tables.home.guide then dropGuideView s else s
  match s1.engaged? with
  | none => s1
  | some r =>
    if r.loop ≠ l then s1
    else
      let s2 := match r.phase with
        | .seek => s1
        | .track | .approach | .contact =>
          clearReported (setFollow { r with phase := .seek, loop := s1.tables.home.perimeter, confirm := 0 } s1)
      writeWheels 0 0 s2

/-- R127: the front coil's node goes SILENT while the unit is engaged. -/
def frontSilent (s : State) : State :=
  match s.engaged? with
  | none => s
  | some _ => writeWheels 0 0 s

/-- R128: the power node goes SILENT while the phase is CONTACT. -/
def powerSilent (s : State) : State :=
  match s.engaged? with
  | none => s
  | some r =>
    match r.phase with
    | .contact => clearReported (setFollow { r with phase := .approach, confirm := 0 } s)
    | .seek | .track | .approach => s

/-- R125: at most one phase change at a hand-off of the guide loop with strength f. -/
def captureStep (s : State) (r : FollowRec) (f : Nat) : FollowRec :=
  match r.phase with
  | .seek =>
    if s.tables.home.capture ≤ f ∧ s.dec.trackers[s.tables.home.guide].state = .locked then
      { r with phase := .track, loop := s.tables.home.guide }
    else r
  | .track => if s.tables.home.approach ≤ f then { r with phase := .approach } else r
  | .approach | .contact => r

/-- +1 or −1 as a number. -/
def Sign.val : Sign → Int
  | .plus => 1
  | .minus => -1

/-- The base speed of a phase (chapter 6). -/
def HomeTable.base (h : HomeTable) : Phase → Nat
  | .seek => h.seekBase
  | .track => h.trackBase
  | .approach => h.approachBase
  | .contact => 0

/-- R124: the turn of the steering law for the filtered offset e in a phase. -/
def steerTurn (h : HomeTable) (p : Phase) (e : Int) : Int :=
  let target := match p with
    | .seek => h.seekOffset
    | .track | .approach | .contact => 0
  let err := h.sense.val * (e - 16 * target)
  if 16 * h.window < err.natAbs then 0
  else clampInt (-(h.turnLimit : Int)) h.turnLimit ((err * h.kp).tdiv 256)

/-- R124: the pair the steering law requests. -/
def steerPair (h : HomeTable) (p : Phase) (e : Int) : Int × Int :=
  let turn := steerTurn h p e
  (clampInt (-1000) 1000 (h.base p + turn), clampInt (-1000) 1000 (h.base p - turn))

/-- R30, R121, R124, R125: a hand-off of the front cell of loop l with its e and F. -/
def handOff (l : Fin 8) (e : Int) (f : Nat) (s : State) : State :=
  let guide := s.tables.home.guide
  let s1 := if l = guide then s.setHome { s.home with guideView := some f } else s
  match s1.engaged? with
  | none => s1
  | some r =>
    let r' := if l = guide then captureStep s1 r f else r
    let s2 := setFollow r' s1
    if r'.loop ≠ l then s2
    else match r'.phase with
      | .contact => writeWheels 0 0 s2
      | .seek | .track | .approach =>
        let w := steerPair s.tables.home r'.phase e
        writeWheels w.1 w.2 s2

/-- R126: the travelled distance and the remainder after an odometry update of magnitude u. -/
def addTravel (r : FollowRec) (remainder u : Nat) : FollowRec × Nat :=
  let sum := 2 * r.travelled + remainder + u
  ({ r with travelled := sum / 2 }, sum % 2)

/-- R131: a power sample while a DOCKED record stands. -/
def chargeWatch (contact : Bool) (percent : Nat) (s : State) : State :=
  match s.act.stack.docked? with
  | none => s
  | some r =>
    let s1 := if r.contact = contact then s else markNotice 19 (setDocked { r with contact := contact } s)
    formReady (s1.setHome { s1.home with lastPercent := some percent })

end Sys2Proof.Machine
end

