-- ==== Sys2Proof/Machine/Activity.lean ====
section
/-! DEFINITION. The activity unit (chapter 3): one event at it (`Ev`), the changes of the stack, the hazard responses
(R65 to R68), the trap (R67) and the six activity requests (R58 to R64), each as the change it makes. -/

namespace Sys2Proof.Machine

/-- One event at the activity unit: the state, whether it has changed the stack (so that the epoch advances once, R52), whether
the top changed (R54), and whether a DOCKED record has come into the stack (R91). -/
structure Ev where
  s : State
  bumped : Bool
  topChanged : Bool
  dockedIn : Bool
  deriving DecidableEq, Repr

/-- An event begins. -/
def Ev.start (s : State) : Ev := ⟨s, false, false, false⟩

/-- A change outside the stack. -/
def Ev.map (e : Ev) (f : State → State) : Ev := { e with s := f e.s }

/-- R52, R53: the epoch rises by one, once in an event, and ACTIVITY becomes pending. -/
def Ev.bump (e : Ev) : Ev :=
  if e.bumped then e
  else { e with s := markNotice 16 (e.s.setAct { e.s.act with epoch := e.s.act.epoch + 1 }), bumped := true }

/-- The stack changes below the top. -/
def Ev.alter (e : Ev) (f : Byte → Stack → Stack) : Ev :=
  let e1 := e.bump
  e1.map fun s => s.setStack (f s.act.epoch s.act.stack)

/-- The stack changes at the top. The event counts as a top change from here on, also where a later step of it takes the change back (DESIGN
CHOICE, log entry 44). -/
def Ev.change (e : Ev) (f : Byte → Stack → Stack) : Ev := { e.alter f with topChanged := true }

/-! ### Cause sets -/

def CauseSet.none : CauseSet := ⟨0, false, false⟩

/-- A cause joins a set (R51). -/
def CauseSet.add (c : CauseSet) : HaltCause → CauseSet
  | .source i => { c with sources := c.sources ||| BitVec.twoPow 16 i.val }
  | .pause => { c with pause := true }
  | .noDock => { c with noDock := true }

/-- A source is in the set. -/
def CauseSet.hasSource (c : CauseSet) (i : Fin 16) : Bool := c.sources.getLsbD i.val

/-- Every cause is soft: PAUSE and LINK-SILENT are (R63). -/
def CauseSet.soft (c : CauseSet) : Bool :=
  !c.noDock && (List.finRange 16).all fun i => !c.hasSource i || i = srcLinkSilent

/-- A cause that stops RESUME: a RAISED source other than TRAPPED and LINK-SILENT (R62). -/
def CauseSet.blocks (c : CauseSet) (h : HazardMonitor) : Bool :=
  (List.finRange 16).any fun i =>
    c.hasSource i && i ≠ srcTrapped && i ≠ srcLinkSilent && h.sources[i].state = .raised

/-! ### Changes of the stack -/

/-- MOW is pushed over IDLE (R58). -/
def pushMow (e : Ev) : Ev := e.change fun ep k => { k with mow := some ⟨ep⟩ }

/-- FOLLOW is pushed; blade-enable is cleared, the remainder is 0 (R51, R55, R126). -/
def pushFollow (byReturn endAfter : Bool) (e : Ev) : Ev :=
  let perimeter := e.s.tables.home.perimeter
  let e1 := e.change fun ep k => { k with home := some (.follow ⟨byReturn, ep, perimeter, .seek, 0, endAfter, 0⟩) }
  e1.map fun s => setBladeEnable false (s.setHome { s.home with remainder := 0 })

/-- ESCAPE is pushed, or replaces the ESCAPE on top, with a record of its own (R51, R64, R66, R67). -/
def putEscape (m : Fin 8) (cause : EscCause) (chain : Nat) (e : Ev) : Ev :=
  e.change fun ep k => { k with esc := some ⟨cause, ep, m, 0, 0, 0, chain⟩ }

/-- R56, R65: a HALT is created; the shadow takes blade-enable, which is then cleared. Blade-enable reaches the envelope unit before the
event's final top does (DESIGN CHOICE, log entry 37). -/
def pushHalt (c : HaltCause) (e : Ev) : Ev :=
  let e1 := e.map fun s => s.setAct { s.act with shadow := s.act.bladeEnable }
  let e2 := e1.change fun ep k => { k with halt := some ⟨ep, CauseSet.none.add c⟩ }
  e2.map (setBladeEnable false)

/-- R61, R65: a halt for cause c pushes HALT, or the cause joins the HALT that stands. -/
def haltFor (c : HaltCause) (e : Ev) : Ev :=
  match e.s.act.stack.halt with
  | none => pushHalt c e
  | some r => e.map fun s => s.setStack { s.act.stack with halt := some { r with causes := r.causes.add c } }

/-- R67, R69: the trap. The ESCAPE is removed, HALT {TRAPPED} pushed and TRAPPED's condition made true. TRAPPED's own HALT response, if it
fires, finds TRAPPED in the cause set and changes nothing, so it is not applied again. -/
def trap (e : Ev) : Ev :=
  let e1 := e.change fun _ k => { k with esc := none }
  (pushHalt (.source srcTrapped) e1).map fun s => (hazardMove srcTrapped true s).1

/-! ### Hazard responses -/

/-- The abort mask of the running step (R115). -/
def abortMask (t : Tables) (r : EscRec) : BitVec 16 := (t.step r.man r.step).mask

/-- R66, R67: an ESCAPE response of source i with manoeuvre m. -/
def escapeResponse (i : Fin 16) (m : Fin 8) (e : Ev) : Ev :=
  let clear (e : Ev) : Ev := e.map (setOwed i false)
  if e.s.tables.counts[m] = 0 then clear (haltFor (.source i) e)
  else match e.s.top with
    | .mow | .follow => clear (putEscape m (.source i) 0 e)
    | .escape =>
      match e.s.act.stack.esc with
      | none => e
      | some r =>
        if (abortMask e.s.tables r).getLsbD i.val then
          if r.chain + 1 < e.s.tables.home.chainLimit then clear (putEscape m (.source i) (r.chain + 1) e)
          else clear (trap e)
        else e.map (setOwed i true)
    | .idle => clear (e.map (writeWheels 0 0))
    | .docked => clear e
    | .halt => e.map (setOwed i true)

/-- R68: a RETURN response. -/
def returnResponse (e : Ev) : Ev :=
  let k := e.s.act.stack
  if k.home.isSome then e
  else match k.topKind with
    | .mow => pushFollow true false e
    | .escape | .halt => if k.mow.isSome then e.map fun s => s.setAct { s.act with pendingReturn := true } else e
    | .idle | .follow | .docked => e

/-- What a fired response does at the activity unit (R79). -/
def responseChange (i : Fin 16) (e : Ev) : Ev :=
  let h := e.s.tables.hazard[i]
  match h.response with
  | .halt => haltFor (.source i) e
  | .escape => escapeResponse i h.manoeuvre e
  | .ret => returnResponse e
  | .slow | .note => e

/-! ### Activity requests, each with its conditions (R57) -/

/-- R58. -/
def requestStartMow (e : Ev) : Except (Code × Nat) Ev :=
  let k := e.s.act.stack
  if k.mow.isSome then .ok e
  else match k.topKind with
    | .idle => .ok (pushMow e)
    | .docked =>
      let e1 := e.alter fun ep k => { k with
        mow := some ⟨ep⟩
        home := k.docked?.map fun r => HomeRec.docked { r with endAfter := false } }
      .ok (e1.map formReady)
    | .mow | .follow | .escape | .halt => .error (.state, 0)

/-- R59, second case: the end value is merged into the FOLLOW or DOCKED record; a set one takes MOW from below DOCKED. -/
def mergeEnd (endAfter : Bool) (h : HomeRec) (e : Ev) : Ev :=
  match h with
  | .follow r => e.map (setFollow { r with endAfter := r.endAfter || endAfter })
  | .docked r =>
    let e1 := e.map (setDocked { r with endAfter := r.endAfter || endAfter })
    if endAfter ∧ e.s.act.stack.mow.isSome then (e1.alter fun _ k => { k with mow := none }).map formReady else e1

/-- R59. -/
def requestGoHome (endAfter : Bool) (e : Ev) : Except (Code × Nat) Ev :=
  let k := e.s.act.stack
  match k.topKind, k.home with
  | .mow, _ | .idle, _ => .ok (pushFollow false endAfter e)
  | _, some h => .ok (mergeEnd endAfter h e)
  | _, none => .error (.state, 0)

/-- R60, R132: the DOCKED record is replaced by the undock escape and the charge watch ends. -/
def requestLeaveDock (e : Ev) : Except (Code × Nat) Ev :=
  let m := e.s.tables.home.undock
  if e.s.top ≠ .docked then .error (.state, 0)
  else if e.s.tables.counts[m] = 0 then .error (.range, 0)
  else
    let e1 := e.change fun ep k => { k with home := none, esc := some ⟨.undock, ep, m, 0, 0, 0, 0⟩ }
    .ok ((e1.map formReady).map fun s => s.setHome { s.home with lastPercent := none })

/-- R61. -/
def requestPause (e : Ev) : Except (Code × Nat) Ev := .ok (haltFor .pause e)

/-- R63, FOLLOW after NO-DOCK. -/
def resetFollow (s : State) : State :=
  match s.engaged? with
  | none => s
  | some r =>
    (setFollow { r with travelled := 0, phase := .seek, loop := s.tables.home.perimeter, confirm := 0 } s).setHome
      { s.home with remainder := 0 }

/-- R63, blades: blade-enable takes the shadow after a halt of soft causes over MOW with STOP, LIFT and TILT QUIET; the
shadow is cleared in every case. -/
def resumeBlades (c : CauseSet) (s : State) : State :=
  let shadow := s.act.shadow
  let s1 := s.setAct { s.act with shadow := false }
  if c.soft ∧ s1.top = .mow ∧ s1.srcState srcStop = .quiet ∧ s1.srcState srcLift = .quiet ∧
      s1.srcState srcTilt = .quiet then setBladeEnable shadow s1
  else s1

/-- R62: HALT is popped, and the ESCAPE beneath it too. -/
def requestResume (e : Ev) : Except (Code × Nat) Ev :=
  match e.s.act.stack.halt with
  | none => .error (.state, 0)
  | some r =>
    if r.causes.blocks e.s.haz then .error (.hazard, 0)
    else
      let e1 := e.change fun _ k => { k with halt := none, esc := none }
      .ok (e1.map fun s =>
        let s1 := resumeBlades r.causes s
        let s2 := if r.causes.noDock then resetFollow s1 else s1
        if r.causes.hasSource srcTrapped then (hazardMove srcTrapped false s2).1 else s2)

/-- R64. -/
def requestRunManoeuvre (m : Nat) (e : Ev) : Except (Code × Nat) Ev :=
  if h : m < 8 then
    if e.s.tables.counts[m] = 0 then .error (.range, 6)
    else match e.s.top with
      | .idle | .mow | .follow | .escape => .ok (putEscape ⟨m, h⟩ .request 0 e)
      | .docked | .halt => .error (.state, 0)
  else .error (.range, 6)

end Sys2Proof.Machine
end

