-- ==== Sys2Proof/Machine/Gate.lean ====
section
/-! DEFINITION. The drive command gate (chapter 7): the check order of R142, the kind conditions of R149, taking a drive
command (R151, R152), the re-gating of the deferred order (R148). -/

namespace Sys2Proof.Machine

/-- The row of an order in the gate table (R138). -/
def Order.row : Order → Fin 12
  | .wheelSpeed _ _ => 0
  | .bladeSpeed _ _ => 1
  | .bladeStart => 2
  | .bladeStop => 3
  | .deckHeight _ => 4
  | .brake _ => 5
  | .startMow => 6
  | .goHome _ => 7
  | .leaveDock => 8
  | .pause => 9
  | .resume => 10
  | .runManoeuvre _ => 11

/-- A drive command, else an activity request (R138). -/
def Order.isDrive (o : Order) : Bool := decide (o.row.val < 6)

/-- The kind byte or the request code of an order (section 11.2). -/
def Order.kindByte (o : Order) : Byte :=
  if o.isDrive then BitVec.ofNat 8 (o.row.val + 1) else BitVec.ofNat 8 (o.row.val - 1)

/-- The class number of an order (section 11.2). -/
def Order.cls (o : Order) : Nat := if o.isDrive then clsDriveCommand else clsMgmtRequest

/-- The cell index of an order under a top (R138). -/
def cellIndex (row : Fin 12) (top : Kind) : Nat := row.val * 6 + top.code

theorem cellIndex_lt (row : Fin 12) (top : Kind) : cellIndex row top < 72 := by
  have h : top.code ≤ 5 := by cases top <;> decide
  unfold cellIndex; omega

/-- The cell of an order under a top (R138). -/
def Tables.cell (t : Tables) (row : Fin 12) (top : Kind) : GateCell :=
  t.gate[cellIndex row top]'(cellIndex_lt row top)

/-- The numerically larger of the claimed rank and the CP rank floor (R144, R187). -/
def effectiveRank (t : Tables) (claimed : BitVec 2) : Nat := max claimed.toNat t.timing.rankFloor

/-- How steps 2 to 5 of R142 end. -/
inductive Verdict where
  | pass
  | refuse (c : Code) (detail : Nat)
  | defer (cell : Nat)
  deriving DecidableEq, Repr

/-- Steps 2 to 5 of R142; `stale` says that step 4 finds a drive command's epoch stale. -/
def gateSteps (o : Order) (rank : Nat) (stale : Bool) (s : State) : Verdict :=
  let idx := cellIndex o.row s.top
  let c := s.tables.cell o.row s.top
  if c.present = false then .refuse .absent idx
  else if c.rankLimit < rank then .refuse .rank idx
  else if stale then .refuse .stale 2
  else match c.disp with
    | .take => .pass
    | .refuse => .refuse .gated idx
    | .defer => .defer idx

/-- The blade a selector names (R149). -/
def bladeOf : Nat → Option Blade
  | 0 => some .bladeA
  | 1 => some .bladeB
  | 2 => some .bladeC
  | _ => none

/-- The logical drive a code names (R149, section 11.2). -/
def driveOfCode : Nat → Option Drive
  | 0 => some (.wheel .left)
  | 1 => some (.wheel .right)
  | 2 => some (.blade .bladeA)
  | 3 => some (.blade .bladeB)
  | 4 => some (.blade .bladeC)
  | 5 => some .deck
  | _ => none

/-- At least one blade is mapped (R149). -/
def Tables.anyBlade (t : Tables) : Bool := Blade.all.any fun b => t.mapped (.blade b)

/-- The blade interlock of R55 and R149. -/
def bladesClear (s : State) : Bool :=
  s.top = .mow && s.act.stack.halt.isNone && s.srcState srcStop = .quiet && s.srcState srcLift = .quiet &&
    s.srcState srcTilt = .quiet

/-- The kind conditions of a drive command (R149): the first that fails, with what the refusal carries. -/
def kindCondition (o : Order) (s : State) : Option (Code × Nat) :=
  match o with
  | .wheelSpeed _ _ =>
    if s.tables.mapped (.wheel .left) ∧ s.tables.mapped (.wheel .right) then none else some (.node, 0)
  | .bladeSpeed sel _ =>
    if 3 < sel then some (.range, 5)
    else match bladeOf sel with
      | some b => if s.tables.mapped (.blade b) then none else some (.node, 0)
      | none => if s.tables.anyBlade then none else some (.node, 0)
  | .bladeStart =>
    if s.tables.anyBlade = false then some (.node, 0)
    else if bladesClear s then none else some (.interlock, 0)
  | .bladeStop => none
  | .deckHeight _ => if s.tables.mapped .deck then none else some (.node, 0)
  | .brake d =>
    match driveOfCode d with
    | none => some (.range, 5)
    | some dr =>
      if s.tables.mapped dr = false then some (.node, 0)
      else match dr with
        | .wheel _ => if s.top = .idle ∨ s.top = .mow then none else some (.state, 0)
        | .blade _ | .deck => none
  | .startMow | .goHome _ | .leaveDock | .pause | .resume | .runManoeuvre _ => none

/-- A wheel speed brought into its range (R151). -/
def clampWheel (t : Tables) (w : Wheel) (v : Int) : Int :=
  let m : Int := (t.driveOf (.wheel w)).maximum
  clampInt (-m) m (clampInt (-1000) 1000 v)

/-- Step 7 for a drive command (R46, R151, R152). The tokens a kind queues on its own account join before those of the
derivation (log entry 16). The START tokens of several mapped blades join in the order BLADE-A, BLADE-B, BLADE-C: R152 gives them none, and the
worked example of chapter 8 shows that of the STOP tokens alone (DESIGN CHOICE, log entry 50). -/
def applyDrive (o : Order) (s : State) : State :=
  match o with
  | .wheelSpeed l r => writeWheels (clampWheel s.tables .left l) (clampWheel s.tables .right r) s
  | .bladeSpeed sel rpm =>
    let bs := match bladeOf sel with
      | some b => [b]
      | none => Blade.all
    writeBlades bs (clampNat 0 4000 rpm) s
  | .bladeStart => setBladeEnable true (queueTokens (Blade.all.map Token.bladeStart) s)
  | .bladeStop => setBladeEnable false (queueTokens (Blade.all.map Token.bladeStop) s)
  | .deckHeight mm => writeDeck (clampNat 20 100 mm) s
  | .brake d =>
    match driveOfCode d with
    | some (.wheel .left) => writeWheels 0 s.env.req.right (queueToken (.wheelBrake .left) s)
    | some (.wheel .right) => writeWheels s.env.req.left 0 (queueToken (.wheelBrake .right) s)
    | some (.blade b) => writeBlades [b] 0 (queueToken (.bladeStop b) s)
    | some .deck | none => s
  | .startMow | .goHome _ | .leaveDock | .pause | .resume | .runManoeuvre _ => s

/-- Steps 6 and 7 of R142: the kind conditions checked and the order applied, or the refusal and what it carries. -/
def applyOrder (o : Order) (e : Ev) : Except (Code × Nat) Ev :=
  match o with
  | .startMow => requestStartMow e
  | .goHome v => requestGoHome (v ≠ 0) e
  | .leaveDock => requestLeaveDock e
  | .pause => requestPause e
  | .resume => requestResume e
  | .runManoeuvre m => requestRunManoeuvre m e
  | .wheelSpeed _ _ | .bladeSpeed _ _ | .bladeStart | .bladeStop | .deckHeight _ | .brake _ =>
    match kindCondition o e.s with
    | some r => .error r
    | none => .ok (e.map (applyDrive o))

/-- Step 4 of R142 at the arrival of an order: a drive command's epoch is compared for equality (R52, R145). -/
def Order.staleAt (o : Order) (epoch : Byte) (s : State) : Bool := o.isDrive && epoch ≠ s.act.epoch

/-- Steps 2 to 7 of R142 on an order: the event after it, the code and what it carries. -/
def gateOrder (o : Order) (rank : Nat) (stale : Bool) (e : Ev) : Ev × Code × Nat :=
  match gateSteps o rank stale e.s with
  | .refuse c d => (e, c, d)
  | .defer cell => (e, .deferred, cell)
  | .pass =>
    match applyOrder o e with
    | .ok e1 => (e1, .done, 0)
    | .error (c, d) => (e, c, d)

/-- R73, R148: the order in the deferred slot is gated again. A drive command that passes steps 2 and 3 is always refused at step 4, however
often the epoch has wrapped since it was deferred. -/
def regate (e : Ev) : Ev :=
  match e.s.gate.deferred with
  | none => e
  | some d =>
    match gateOrder d.order d.rank d.order.isDrive e with
    | (_, .deferred, _) => e
    | (e1, c, detail) =>
      let e2 := e1.map fun s => s.setGate { s.gate with deferred := none }
      if c.refuses then e2.map (enterRefusal c d.order.cls d.order.kindByte detail) else e2

end Sys2Proof.Machine
end

