-- ==== Sys2Proof/Machine/Events.lean ====
section
/-! DEFINITION. Events at the activity unit, whole: the processing at a top change (R71 to R73), the hand-over of the final top
(R54), BATTERY-LOW at a change of DOCKED (R91), the change of a condition with its response (R77, R79), an order at the gate
(R142). -/

namespace Sys2Proof.Machine

/-- R71: the pending return. -/
def pendingReturnStep (e : Ev) : Ev :=
  let clear (e : Ev) : Ev := e.map fun s => s.setAct { s.act with pendingReturn := false }
  if e.s.act.pendingReturn = false then e
  else match e.s.top with
    | .mow => clear (pushFollow true false e)
    | .escape | .halt => e
    | .idle | .follow | .docked => clear e

/-- R72: the owed response of one source. -/
def owedStep (e : Ev) (i : Fin 16) : Ev :=
  let r := e.s.haz.sources[i]
  if r.owed = false then e
  else if r.state ≠ .raised then e.map (setOwed i false)
  else escapeResponse i e.s.tables.hazard[i].manoeuvre e

/-- R71 to R73: the three steps, once, at a top change. -/
def process (e : Ev) : Ev :=
  if e.topChanged then regate ((List.finRange 16).foldl owedStep (pendingReturnStep e)) else e

/-- R54: the neighbours are handed the final top, once. The zeroing of the wheels and the activity cap of the top are taken in one derivation
(DESIGN CHOICE, log entry 37). A HALT pushed and popped again within the event is a top change here though the top is the record from before
(DESIGN CHOICE, log entry 44). -/
def closeEvent (e : Ev) : State :=
  if e.topChanged then settleFollow (topToExecutor (writeWheels 0 0 (setActivityCap e.s))) else e.s

/-- BATTERY-LOW is formed after a DOCKED record has left or come; its response, if it fires, is an event of its own (R91, R79). -/
def formBattery (s : State) : State :=
  match hazardMove srcBatteryLow (batteryCond s) s with
  | (s1, true) => closeEvent (process (responseChange srcBatteryLow (Ev.start s1)))
  | (s1, false) => s1

/-- R91: every change of whether the stack holds a DOCKED record is handed to the monitor, in order: one that came in the event makes the
condition false, also when it has left again in the same event, and one that left forms it again. `docked` says whether one stood
before the event. The change is formed after the hand-over of the top (log entry 24). -/
def batteryAfter (docked : Bool) (e : Ev) : State :=
  let s := closeEvent e
  let s1 := if e.dockedIn then (hazardMove srcBatteryLow false s).1 else s
  if (docked || e.dockedIn) = s1.act.stack.docked?.isSome then s1 else formBattery s1

/-- An event at the activity unit, with at most one advance of the epoch (R52). That each response is such an event of its own, also where one
sample or one other command raises several sources, is read from R52, R77 and R79 (DEDUCED, log entry 17). -/
def actEvent (base : Ev → Ev) (s : State) : State :=
  batteryAfter s.act.stack.docked?.isSome (process (base (Ev.start s)))

/-- R77, R79: the condition of source i is handed over as v; a rise out of QUIET fires the response in the same event.
The response is an event of its own at the activity unit, with its own processing and epoch advance (DEDUCED, log entry 17). -/
def setCondition (i : Fin 16) (v : Bool) (s : State) : State :=
  match hazardMove i v s with
  | (s1, true) => actEvent (responseChange i) s1
  | (s1, false) => s1

/-- R147: the order enters the empty slot with its effective rank and the current epoch; an activity request carries
no epoch, a drive command no tag. -/
def deferOrder (o : Order) (rank : Nat) (epoch tag : Byte) (s : State) : State :=
  let d : DeferredOrder :=
    { order := o, tag := if o.isDrive then 0 else tag, rank := rank, epoch := if o.isDrive then epoch else 0
      entry := s.act.epoch }
  s.setGate { s.gate with deferred := some d }

/-- R142 to R154: an order is taken at the gate. The code and what the answer carries come with the state. -/
def takeOrder (o : Order) (rank : Nat) (epoch tag : Byte) (s : State) : State × Code × Nat :=
  match gateOrder o rank (o.staleAt epoch s) (Ev.start s) with
  | (e, .done, d) => (batteryAfter s.act.stack.docked?.isSome (process e), .done, d)
  | (_, .deferred, cell) =>
    match s.gate.deferred with
    | some _ => (enterRefusal .busy o.cls o.kindByte cell s, .busy, cell)
    | none => (deferOrder o rank epoch tag s, .deferred, cell)
  | (_, c, d) => (enterRefusal c o.cls o.kindByte d s, c, d)

/-- SENSOR-SILENT is formed again (R87). -/
def formSensorSilent (s : State) : State := setCondition srcSensorSilent (sensorSilentCond s.haz) s

/-- R69: the executor's completion report. -/
def popEscape (e : Ev) : Ev := e.change fun _ k => { k with esc := none }

/-- R70: the dock is confirmed; FOLLOW is replaced by DOCKED, MOW goes too when the end-after-dock flag is set, and the charge watch is set
up (R131). -/
def confirmDock (e : Ev) : Ev :=
  match e.s.engaged? with
  | none => e
  | some r =>
    let e1 := e.change fun ep k => { k with
      home := some (.docked ⟨ep, true, r.endAfter⟩), mow := if r.endAfter then none else k.mow }
    { e1 with dockedIn := true }.map fun s =>
      let kept := s.haz.kept
      let s1 := setBladeEnable false (s.setHome { s.home with
        lastPercent := if kept.powerTaken then some kept.power.percent else none })
      markNotice 19 (formReady s1)

/-- R70, R130: the follow limit is exceeded. -/
def followLimit (e : Ev) : Ev := if e.s.act.stack.follow?.isSome then haltFor .noDock e else e

end Sys2Proof.Machine
end

