-- ==== Sys2Proof/Machine/Perimeter.lean ====
section
/-! DEFINITION. The perimeter decoder (chapter 1): correlation, the rotation tracker, the estimate cells, the outputs, and what a
coil frame, a fade expiry and the loss of a coil do. -/

namespace Sys2Proof.Machine

/-! ### Correlation (R8, R9) -/

/-- Chip i of a code, +1 or −1 (section 11.4). -/
def chip (code : BitVec 16) (i : Nat) : Int := if code.getLsbD i then 1 else -1

/-- C_r (R8). -/
def correlation (code : BitVec 16) (s : List Int) (r : Fin 16) : Int :=
  ((List.range 16).map fun i => chip code ((i + r.val) % 16) * s.getD i 0).sum

/-- Four or more samples at −128 or +127 (R9). -/
def saturated (s : List Int) : Bool := decide (4 ≤ (s.filter fun x => x = -128 ∨ x = 127).length)

/-- The rotation with the largest |C_r|, the lowest when several tie (R11). -/
def bestRotation (code : BitVec 16) (s : List Int) : Fin 16 :=
  (List.finRange 16).foldl
    (fun best r => if (correlation code s best).natAbs < (correlation code s r).natAbs then r else best) 0

/-! ### The tracker (R10 to R17) -/

/-- The slip check (R12): the rotation after it and C_on. -/
def slipCheck (l : LoopEntry) (s : List Int) (rho : Fin 16) : Fin 16 × Int :=
  let early := correlation l.code s (rho - 1)
  let on := correlation l.code s rho
  let late := correlation l.code s (rho + 1)
  let exceeds (c : Int) : Bool := decide (on.natAbs + l.slip < c.natAbs)
  match exceeds early, exceeds late with
  | false, false => (rho, on)
  | true, false => (rho - 1, early)
  | false, true => (rho + 1, late)
  | true, true =>
    if late.natAbs < early.natAbs then (rho - 1, early)
    else if early.natAbs < late.natAbs then (rho + 1, late)
    else (rho, on)

/-- A frame of the reference coil in SEARCH (R11). -/
def searchStep (l : LoopEntry) (gap : Bool) (s : List Int) (t : Tracker) : Tracker × Option Int :=
  let run := if gap then 0 else t.run
  let best := bestRotation l.code s
  let t1 : Tracker :=
    if l.tlock ≤ (correlation l.code s best).natAbs then
      if best = t.cand ∧ 0 < run then { t with run := run + 1 } else { t with cand := best, run := 1 }
    else { t with run := 0 }
  if 0 < t1.run ∧ l.lockCount ≤ t1.run then
    ({ t1 with state := .locked, rho := t1.cand, lose := 0 }, some (correlation l.code s t1.cand))
  else (t1, none)

/-- A frame of the reference coil in LOCKED (R12, R13). -/
def lockedStep (l : LoopEntry) (s : List Int) (t : Tracker) : Tracker × Option Int :=
  let (rho, con) := slipCheck l s t.rho
  let lose := if con.natAbs < l.tlose then t.lose + 1 else 0
  if 0 < lose ∧ l.loseCount ≤ lose then
    ({ t with state := .fading, rho := rho, lose := 0, fade := some l.fadeTime }, some con)
  else ({ t with rho := rho, lose := lose }, some con)

/-- A frame of the reference coil in FADING (R14). -/
def fadingStep (l : LoopEntry) (s : List Int) (t : Tracker) : Tracker × Option Int :=
  let (rho, con) := slipCheck l s t.rho
  if l.tlock ≤ con.natAbs then ({ t with state := .locked, rho := rho, lose := 0, fade := none }, some con)
  else ({ t with rho := rho }, some con)

/-- A decoded frame at a loop's tracker (R11 to R16): the tracker after it, and C_on when a cell is updated. -/
def trackerStep (l : LoopEntry) (isRef gap : Bool) (s : List Int) (t : Tracker) : Tracker × Option Int :=
  match t.state, isRef with
  | .off, _ => (t, none)
  | .search, true => searchStep l gap s t
  | .search, false => (t, none)
  | .locked, true => lockedStep l s t
  | .fading, true => fadingStep l s t
  | .locked, false | .fading, false => (t, some (correlation l.code s t.rho))

/-- R17: the reference coil of a loop becomes unavailable. -/
def trackerUnavailable (l : LoopEntry) (t : Tracker) : Tracker :=
  match t.state with
  | .locked => { t with state := .fading, lose := 0, fade := some l.fadeTime }
  | .search => { t with run := 0 }
  | .fading | .off => t

/-! ### The estimate cell (R19 to R25) -/

/-- The strength (R21). -/
def strength (sat : Bool) (con : Int) (gain : Nat) : Nat :=
  if sat then 4095 else min 4095 (con.natAbs * gain / 64)

/-- Entry j of the breakpoint table; beyond the last entry, the last. -/
def Tables.point (t : Tables) (j : Nat) : Breakpoint := if h : j < 8 then t.dist[j] else t.dist[7]

/-- The distance (R23): the first j, 0 to 6, whose next breakpoint is not above F gives the interpolation. -/
def distance (t : Tables) (f : Nat) : Nat :=
  if (t.point 0).f ≤ f then (t.point 0).d
  else if f ≤ (t.point 7).f then (t.point 7).d
  else
    match (List.range 7).find? fun j => decide ((t.point (j + 1)).f ≤ f) with
    | some j =>
      let a := t.point j
      let b := t.point (j + 1)
      a.d + (a.f - f) * (b.d - a.d) / (a.f - b.f)
    | none => (t.point 7).d

/-- The sign of a number times a polarity; a number of 0 keeps the given sign (R24). -/
def signOf (con : Int) (polarity keep : Sign) : Sign :=
  if con = 0 then keep
  else if 0 < con then polarity
  else match polarity with
    | .plus => .minus
    | .minus => .plus

/-- The filter (R25). -/
def filterStep (alpha : Nat) (d e : Int) : Int := e + ((16 * d - e) * alpha).tdiv 16

/-- The update of a cell with C_on (R20). -/
def updateCell (t : Tables) (l : LoopEntry) (gain : Nat) (sat : Bool) (con : Int) (c : EstCell) : EstCell :=
  let old := c.mark = .fresh
  let f := strength sat con gain
  let d := distance t f
  let sign := signOf con l.polarity (if old then c.sign else .plus)
  let off : Int := sign.val * d
  { mark := .fresh, con := con, f := f, d := d, sign := sign
    e := if old then filterStep l.alpha off c.e else 16 * off
    used := if old then (if c.used < 65535 then c.used + 1 else 65535) else 1 }

/-- The number of the cell of loop l and coil c. -/
def cellIdx (l : Fin 8) (c : Fin 4) : Fin 32 := ⟨4 * l.val + c.val, by omega⟩

/-- The cell of loop l and coil c. -/
def Decoder.cell (d : Decoder) (l : Fin 8) (c : Fin 4) : EstCell := d.cells[cellIdx l c]

/-- Replace a cell. -/
def Decoder.setCell (d : Decoder) (l : Fin 8) (c : Fin 4) (x : EstCell) : Decoder :=
  { d with cells := d.cells.set (cellIdx l c) x }

/-- Replace a tracker. -/
def Decoder.setTracker (d : Decoder) (l : Fin 8) (x : Tracker) : Decoder := { d with trackers := d.trackers.set l x }

/-- The four cells of a loop emptied. -/
def Decoder.emptyLoop (d : Decoder) (l : Fin 8) : Decoder :=
  (List.finRange 4).foldl (fun d c => d.setCell l c emptyCell) d

/-- The eight cells of a coil emptied. -/
def Decoder.emptyCoil (d : Decoder) (c : Fin 4) : Decoder :=
  (List.finRange 8).foldl (fun d l => d.setCell l c emptyCell) d

/-- A silent coil's FRESH cells become STALE (R19). -/
def Decoder.staleCoil (d : Decoder) (c : Fin 4) : Decoder :=
  (List.finRange 8).foldl
    (fun d l => if (d.cell l c).mark = .fresh then d.setCell l c { d.cell l c with mark := .stale } else d) d

/-- R17: coil c becomes unavailable to every enabled loop that uses it as reference. -/
def Decoder.unavailable (d : Decoder) (t : Tables) (c : Fin 4) : Decoder :=
  (List.finRange 8).foldl
    (fun d l => if t.loop[l].enabled && t.loop[l].refCoil = c then
      d.setTracker l (trackerUnavailable t.loop[l] d.trackers[l]) else d) d

/-! ### Outputs (R26 to R30) -/

/-- The liveness record of a node says SILENT. -/
def nodeSilent (h : HazardMonitor) (n : Fin 8) : Bool :=
  match h.nodes[n] with
  | some r => r.state = .silent
  | none => false

/-- The node number of a coil. -/
def coilNode (c : Fin 4) : Fin 8 := ⟨c.val, by omega⟩

/-- A cell contributes (R26). -/
def contributes (s : State) (l : Fin 8) (c : Fin 4) : Bool :=
  (s.dec.cell l c).mark = .fresh && s.dec.trackers[l].following && !nodeSilent s.haz (coilNode c)

/-- The reported distance of a cell (R25). -/
def EstCell.reported (c : EstCell) : Int := c.e.tdiv 16

/-- The reported distances of the contributing cells of PERIMETER and ISLAND loops. -/
def boundaryDistances (s : State) : List Int :=
  (List.finRange 8).flatMap fun l =>
    if s.tables.loop[l].cls = .guide then []
    else ((List.finRange 4).filter fun c => contributes s l c).map fun c => (s.dec.cell l c).reported

/-- The smallest of a list, none when it is empty (R27). -/
def smallest : List Int → Option Int
  | [] => none
  | x :: l => some (l.foldl min x)

/-- OUTSIDE as it stands after a re-evaluation (R28). -/
def outsideCond (old : Bool) (margin : Nat) (ds : List Int) : Bool :=
  if ds.any fun d => decide (d < -(margin : Int)) then true
  else if ds.all fun d => decide (0 ≤ d) then false
  else old

/-- WIRE-LOST: no PERIMETER loop is LOCKED or FADING (R29). -/
def wireLostCond (t : Tables) (d : Decoder) : Bool :=
  (List.finRange 8).all fun l => !(t.loop[l].cls = .perimeter && d.trackers[l].following)

/-- R94: the decoder's WIRE-LOST has become true; a delay of 0 makes source 9's condition true at once. -/
def startWireDelay (s : State) : State :=
  if s.tables.sensor.wireDelay = 0 then setCondition srcWireLost true (s.setHaz { s.haz with wireDelay := none })
  else s.setHaz { s.haz with wireDelay := some s.tables.sensor.wireDelay }

/-- R94: the decoder's WIRE-LOST has become false. -/
def stopWireDelay (s : State) : State :=
  setCondition srcWireLost false (s.setHaz { s.haz with wireDelay := none })

/-- N handed over when it changed (R27). -/
def outputN (s : State) : State :=
  let n := smallest (boundaryDistances s)
  if s.dec.n = n then s else takeN n (s.setDec { s.dec with n := n })

/-- OUTSIDE handed over when it changed (R28, R94). -/
def outputOutside (s : State) : State :=
  let v := outsideCond s.dec.outside s.tables.home.outside (boundaryDistances s)
  if s.dec.outside = v then s else setCondition srcOutside v (s.setDec { s.dec with outside := v })

/-- WIRE-LOST handed over when it changed (R29, R94). -/
def outputWireLost (s : State) : State :=
  let v := wireLostCond s.tables s.dec
  if s.dec.wireLost = v then s
  else
    let s1 := s.setDec { s.dec with wireLost := v }
    if v then startWireDelay s1 else stopWireDelay s1

/-- The re-evaluation of the outputs (section 1.6). -/
def reevaluate (s : State) : State := outputWireLost (outputOutside (outputN s))

/-! ### Arrivals, silence, fading -/

/-- The periods of the eight nodes: coils 0 to 3, inclination, contact, power, rain; none for a node that is not
present (R85). -/
def Tables.nodePeriod (t : Tables) (n : Fin 8) : Option Nat :=
  let ofNode (x : SensorNode) : Option Nat := if x.present then some x.period else none
  if h : n.val < 4 then if t.coil[n.val].present then some t.coil[n.val].period else none
  else if n.val = 4 then ofNode t.sensor.incline
  else if n.val = 5 then ofNode t.sensor.contact
  else if n.val = 6 then ofNode t.sensor.power
  else ofNode t.sensor.rain

/-- The address of a node (R85, R98, R99). -/
def Tables.nodeAddress (t : Tables) (n : Fin 8) : Byte :=
  if h : n.val < 4 then t.coil[n.val].node
  else if n.val = 4 then t.sensor.incline.node
  else if n.val = 5 then t.sensor.contact.node
  else if n.val = 6 then t.sensor.power.node
  else t.sensor.rain.node

/-- Replace a liveness record. -/
def setNode (n : Fin 8) (r : Option NodeRec) (s : State) : State :=
  s.setHaz { s.haz with nodes := s.haz.nodes.set n r }

/-- A node's record as a table write or READY leaves it: PENDING with its deadline started, none when not present (R86). -/
def pendNode (n : Fin 8) (s : State) : State :=
  setNode n ((s.tables.nodePeriod n).map fun p => ⟨.pending, some (3 * p)⟩) s

/-- An arrival: the node is FRESH and its deadline restarts (R85); a return from SILENT forms SENSOR-SILENT again (R87). -/
def arrive (n : Fin 8) (s : State) : State :=
  match s.tables.nodePeriod n with
  | none => s
  | some p =>
    let s1 := setNode n (some ⟨.fresh, some (3 * p)⟩) s
    if nodeSilent s.haz n then formSensorSilent s1 else s1

/-- Replace a coil's intake record. -/
def setIntake (c : Fin 4) (r : CoilIntake) (s : State) : State :=
  s.setDec { s.dec with intakes := s.dec.intakes.set c r }

/-- What one decoded frame does at one loop: the decoder after it, the hand-off of R30 with its e and F when the cell was updated, and
whether the loop locked (R18). -/
def frameAtLoop (t : Tables) (c : Fin 4) (gap : Bool) (s : List Int) (d : Decoder) (l : Fin 8) :
    Decoder × Option (Int × Nat) × Bool :=
  let entry := t.loop[l]
  let old := d.trackers[l]
  let (tr, con) := trackerStep entry (entry.refCoil = c) gap s old
  let d1 := d.setTracker l tr
  let locks := decide (old.state = .search ∧ tr.state = .locked)
  match con with
  | none => (d1, none, locks)
  | some con =>
    let x := updateCell t entry t.coil[c].gain (saturated s) con (d1.cell l c)
    (d1.setCell l c x, some (x.e, x.f), locks)

/-- One loop's share of a decoded frame (R16, R20, R30): the decoder, the LOOP notice, and the hand-off when the coil is the front coil. -/
def applyToLoop (c : Fin 4) (gap : Bool) (samples : List Int) (s : State) (l : Fin 8) : State :=
  if s.tables.loop[l].enabled = false then s
  else
    let (d, hand, locks) := frameAtLoop s.tables c gap samples s.dec l
    let s1 := s.setDec d
    let s2 := if locks then markNotice 18 s1 else s1
    match hand with
    | none => s2
    | some (e, f) =>
      if s2.tables.frontCoil = some c ∧ contributes s2 l c then handOff l e f s2 else s2

/-- A coil frame is decoded (R3, R16, R20): applied to every loop in turn, then the outputs are re-evaluated once. -/
def decodeFrame (c : Fin 4) (gap : Bool) (samples : List Int) (s : State) : State :=
  reevaluate ((List.finRange 8).foldl (applyToLoop c gap samples) s)

/-- The sequence check of R3, then the decoding. -/
def sequenceFrame (c : Fin 4) (seq : Byte) (samples : List Int) (s : State) : State :=
  let r := s.dec.intakes[c]
  match r.lastSeq with
  | none => decodeFrame c false samples (setIntake c { r with lastSeq := some seq } s)
  | some last =>
    let g := (seq - last).toNat
    if g = 0 then s
    else
      let missed := min 65535 (r.missed + (g - 1))
      decodeFrame c (decide (2 ≤ g)) samples (setIntake c { r with lastSeq := some seq, missed := missed } s)

/-- The present coil entry with an address (R3). -/
def Tables.coilAt (t : Tables) (a : Byte) : Option (Fin 4) :=
  (List.finRange 4).find? fun c => t.coil[c].present && t.coil[c].node = a

/-- A COIL-SAMPLE handed to the device (R3, R85). -/
def useCoilSample (node : Byte) (payload : List Byte) (s : State) : State :=
  match s.tables.coilAt node, payload with
  | some c, seq :: chips =>
    if chips.length ≠ 16 then s
    else
      let s1 := setIntake c { s.dec.intakes[c] with awaiting := false } s
      sequenceFrame c seq (chips.map s8) (arrive (coilNode c) s1)
  | _, _ => s

/-- A loop leaves FADING for SEARCH at its fade expiry (R15). -/
def fadeTracker (t : Tracker) : Tracker := { t with state := .search, cand := 0, run := 0, lose := 0, fade := none }

/-- The fade timer of loop l expires (R15, R18, R127). The homing unit's loss of the loop is taken before N, OUTSIDE and WIRE-LOST are handed over
(DESIGN CHOICE, log entry 38). -/
def expireFade (l : Fin 8) (s : State) : State :=
  let t := s.dec.trackers[l]
  match t.state, t.fade with
  | .fading, some _ =>
    let s1 := s.setDec ((s.dec.setTracker l (fadeTracker t)).emptyLoop l)
    reevaluate (loopLost l (markNotice 18 s1))
  | _, _ => s

/-- R19, R17, R121, R127: a coil's node has gone SILENT. At the front coil the guide view is dropped and an engaged FOLLOW has its wheels zeroed
before N, OUTSIDE and WIRE-LOST are re-evaluated and handed over (R26 to R29): no rule orders the two (DESIGN CHOICE, log entry 38). -/
def coilSilent (c : Fin 4) (s : State) : State :=
  let guideFresh := decide ((s.dec.cell s.tables.home.guide c).mark = .fresh)
  let s1 := s.setDec ((s.dec.staleCoil c).unavailable s.tables c)
  let s2 := if s.tables.frontCoil = some c then
      frontSilent (if guideFresh then dropGuideView s1 else s1)
    else s1
  reevaluate s2

/-- The deadline of node n expires (R86, R87). The node's own effects, on the cells, the cap or the FOLLOW phase, come before SENSOR-SILENT is formed
(DESIGN CHOICE, log entry 38). -/
def expireDeadline (n : Fin 8) (s : State) : State :=
  match s.haz.nodes[n] with
  | some ⟨_, some _⟩ =>
    let s1 := setNode n (some ⟨.silent, none⟩) s
    let s2 :=
      if h : n.val < 4 then coilSilent ⟨n.val, h⟩ s1
      else if n.val = 4 then refresh s1
      else if n.val = 6 then powerSilent s1
      else s1
    formSensorSilent s2
  | _ => s

/-- The hold timer of source i expires (R78). -/
def expireHold (i : Fin 16) (s : State) : State :=
  match s.haz.sources[i].state, s.haz.sources[i].hold with
  | .held, some _ => moveSource i .quiet none s
  | _, _ => s

/-- The wire-lost delay expires (R94). -/
def expireWireDelay (s : State) : State :=
  match s.haz.wireDelay with
  | some _ => setCondition srcWireLost true (s.setHaz { s.haz with wireDelay := none })
  | none => s

end Sys2Proof.Machine
end

