-- ==== Sys2Proof/Machine/DriveMaster.lean ====
section
/-! DEFINITION. The drive port master (chapter 8): frames from tokens, the send and reply cycle, status intake, odometry, stall,
load, DRIVE-FAULT. -/

namespace Sys2Proof.Machine

/-- The node record of a drive (R161). -/
def DrivePort.recOf (p : DrivePort) (d : Drive) : DriveRec := p.records[d.idx]

/-- Replace a node record. -/
def setDriveRec (d : Drive) (r : DriveRec) (s : State) : State :=
  s.setDp { s.dp with records := s.dp.records.set d.idx r }

/-! ### Sending (R164 to R166) -/

/-- The held speed of a wheel. -/
def DriveValues.wheel (v : DriveValues) : Wheel → Int
  | .left => v.left
  | .right => v.right

/-- The payload a token sends, its value read from the held record now (R165, section 11.2). -/
def tokenPayload (held : DriveValues) : Token → List Byte
  | .wheelSpeed w => [1] ++ enc2 (held.wheel w)
  | .wheelBrake _ => [6]
  | .bladeSpeed b => [2] ++ enc2 (held.blades.get b)
  | .bladeStart _ => [3]
  | .bladeStop _ => [4]
  | .height => [5] ++ enc1 held.deck

/-- The in-flight record of a token taken now (R165, R166). -/
def tokenFrame (t : Token) (s : State) : InFlight :=
  let address := (s.tables.driveOf t.drive).node
  ⟨t, address, frameBytes 5 (ownHeader address s.act.epoch) (tokenPayload s.env.held t)⟩

/-- The token the master takes next: the oldest BRAKE or STOP, else the oldest (R164). -/
def nextToken (q : List Token) : Option Token :=
  match q.find? Token.urgent with
  | some t => some t
  | none => q.head?

/-- R164: with the cycle IDLE and a token in the queue one token is taken and its frame begins. Every command ends with
it, so that a frame carries the values of the end of the event (log entry 15). The mark of an expiry that may have met its reply
is cleared (log entry 41). -/
def takeToken (s : State) : State :=
  if s.isReady = false then s
  else match s.dp.cycle, nextToken s.dp.queue with
    | .idle, some t =>
      s.setDp { s.dp with
        queue := s.dp.queue.filter (fun x => x ≠ t), cycle := .sending (tokenFrame t s), raced := none }
    | _, _ => s.setDp { s.dp with raced := none }

/-- The DP driver enable pin (R212). -/
def State.dpde (s : State) : Bool :=
  match s.dp.cycle with
  | .sending _ => s.isReady
  | .idle | .awaitReply _ => false

/-- The last byte of the DP frame has gone out (R166). -/
def sendDone (s : State) : State :=
  match s.dp.cycle with
  | .sending f => s.setDp { s.dp with cycle := .awaitReply f, replyTimer := some s.tables.timing.replyTimeout }
  | .idle | .awaitReply _ => s

/-! ### Conditions (R174 to R176) -/

/-- STALL of a wheel: mapped, and its stall run is 4 (R174). -/
def stallCond (s : State) (w : Wheel) : Bool :=
  s.tables.mapped (.wheel w) && (s.dp.recOf (.wheel w)).stallRun = 4

/-- BLADE-OVERLOAD: a mapped blade has an overload run of 4 (R175). -/
def overloadCond (s : State) : Bool :=
  Blade.all.any fun b => s.tables.mapped (.blade b) && (s.dp.recOf (.blade b)).overRun = 4

/-- A drive is mapped and its node UNRESPONSIVE or FAULTED. -/
def driveBad (s : State) (d : Drive) : Bool :=
  s.tables.mapped d && match (s.dp.recOf d).state with
    | .unresponsive | .faulted => true
    | .pending | .active => false

/-- DRIVE-FAULT (R176). -/
def faultCond (s : State) : Bool := Drive.all.any (driveBad s)

/-- STALL-LEFT as formed now is handed to the hazard monitor where it changed (R174, R93). -/
def formStallLeft (s : State) : State :=
  let v := stallCond s .left
  if s.dp.stallLeft = v then s else setCondition srcStallLeft v (s.setDp { s.dp with stallLeft := v })

/-- STALL-RIGHT (R174, R93). -/
def formStallRight (s : State) : State :=
  let v := stallCond s .right
  if s.dp.stallRight = v then s else setCondition srcStallRight v (s.setDp { s.dp with stallRight := v })

/-- BLADE-OVERLOAD (R175, R93). -/
def formOverload (s : State) : State :=
  let v := overloadCond s
  if s.dp.overload = v then s else setCondition srcOverload v (s.setDp { s.dp with overload := v })

/-- DRIVE-FAULT (R176, R93). -/
def formFault (s : State) : State :=
  let v := faultCond s
  if s.dp.fault = v then s else setCondition srcDriveFault v (s.setDp { s.dp with fault := v })

/-- Each of the four conditions that changed is handed to the hazard monitor (R172). Several of one event go in the order STALL-LEFT, STALL-RIGHT,
BLADE-OVERLOAD, DRIVE-FAULT (DESIGN CHOICE, log entry 47), each response with its own advance of the epoch (DEDUCED, log entry 17). -/
def formDriveConditions (s : State) : State := formFault (formOverload (formStallRight (formStallLeft s)))

/-! ### Status intake (R172) -/

/-- A reply at a node record (R162). -/
def replyRec (st : DriveStatus) (r : DriveRec) : DriveRec :=
  { r with state := if st.fault = 0 then .active else .faulted, miss := 0, status := st, taken := true }

/-- A miss at a node record (R162, R174, R175). -/
def missRec (r : DriveRec) : DriveRec :=
  let m := if r.miss < 255 then r.miss + 1 else 255
  if r.state ≠ .unresponsive ∧ 3 ≤ m then { r with state := .unresponsive, miss := m, stallRun := 0, overRun := 0 }
  else { r with miss := m }

/-- The odometry of a wheel status: whole millimetres, and the rest that stays in the accumulator (R173). -/
def odometry (acc tick : Int) (scale : Nat) : Int × Int :=
  let sum := acc + tick * scale
  (sum.tdiv 1000, sum.tmod 1000)

/-- The stall test (R174). -/
def stallTest (current stallCurrent : Nat) (speed held : Int) : Bool :=
  decide (stallCurrent ≤ current) && decide (speed.natAbs < 50) && decide (100 ≤ held.natAbs)

/-- A run of passing tests, holding at 4 (R174, R175). -/
def runStep (pass : Bool) (run : Nat) : Nat := if pass then (if run < 4 then run + 1 else 4) else 0

/-- The load percent (R37, R175). -/
def loadPercent (current nominal : Nat) : Nat := min 1000 (current * 100 / nominal)

/-- R126, R130: an odometry update reaches the homing unit. -/
def odometryToHoming (u : Int) (s : State) : State :=
  match s.engaged? with
  | none => s
  | some r =>
    let (r', rest) := addTravel r s.home.remainder u.natAbs
    let s1 := (setFollow r' s).setHome { s.home with remainder := rest }
    if s.tables.home.maxFollow * 1000 < r'.travelled then actEvent followLimit s1 else s1

/-- R172: a status is taken in for drive d. -/
def takeStatus (d : Drive) (st : DriveStatus) (s : State) : State :=
  let entry := s.tables.driveOf d
  let r := replyRec st (s.dp.recOf d)
  match d with
  | .wheel w =>
    let (u, rest) := odometry r.acc st.tick entry.scale
    let run := runStep (stallTest st.current entry.stall st.speed (s.env.held.wheel w)) r.stallRun
    let s1 := setDriveRec d { r with acc := rest, stallRun := run } s
    formDriveConditions (odometryToHoming u (odometryToEscape u s1))
  | .blade b =>
    let p := loadPercent st.current entry.nominal
    let run := runStep (decide (s.tables.sensor.overload ≤ p)) r.overRun
    formDriveConditions (takePercent b p (setDriveRec d { r with overRun := run } s))
  | .deck => formDriveConditions (setDriveRec d r s)

/-- The fields of a drive status (section 11.2). -/
def parseStatus : List Byte → Option DriveStatus
  | [t0, t1, c0, c1, v0, v1, fault] => some ⟨s16 t0 t1, u16 c0 c1, s16 v0 v1, fault⟩
  | _ => none

/-- The wait ends: the cycle is IDLE, nothing is in flight (R166). -/
def endWait (s : State) : State := s.setDp { s.dp with cycle := .idle, replyTimer := none }

/-- A DRIVE-STATUS handed to the master (R167, R169). It is taken in for the mapped drive that holds the address now, also where another drive
held it when the frame went out (DESIGN CHOICE, log entry 46). -/
def useDriveStatus (node : Byte) (payload : List Byte) (s : State) : State :=
  match parseStatus payload with
  | none => s
  | some st =>
    let s1 := match s.dp.cycle with
      | .awaitReply f => if f.address = node then endWait s else s
      | .idle | .sending _ => s
    match s1.tables.driveAt node with
    | some d => takeStatus d st s1
    | none => s1

/-- The reply timer expires (R168). The miss is counted against the mapped drive that holds the in-flight address now, also where another drive
held it when the frame went out (R177; DESIGN CHOICE, log entry 46). -/
def expireReply (s : State) : State :=
  match s.dp.cycle, s.dp.replyTimer with
  | .awaitReply f, some _ =>
    let s1 := endWait s
    match s1.tables.driveAt f.address with
    | some d => formDriveConditions (setDriveRec d (missRec (s1.dp.recOf d)) s1)
    | none => s1
  | _, _ => s

/-- R168: the node whose wait an expiry taken in `s` ends; a reply of that node may have reached the master together with the expiry. -/
def expiredWait (s : State) : Option Byte :=
  match s.isReady, s.dp.cycle, s.dp.replyTimer with
  | true, .awaitReply f, some _ => some f.address
  | _, _, _ => none

/-- R168: the mark that a reply of a node may come together with the expiry just taken; without such a wait nothing changes. -/
def markRaced (a : Option Byte) (s : State) : State :=
  match a with
  | some _ => s.setDp { s.dp with raced := a }
  | none => s

/-- The tokens of the refresh, in order (R170). -/
def refreshTokens : List Token :=
  [.wheelSpeed .left, .wheelSpeed .right, .bladeSpeed .bladeA, .bladeSpeed .bladeB, .bladeSpeed .bladeC]

/-- The refresh timer expires (R170). A token in flight stands in no queue and joins at its place in the order LEFT, RIGHT, BLADE-A, BLADE-B,
BLADE-C, behind what is queued already: "behind the others" is not read as behind every token of this refresh (DESIGN CHOICE, log entry 48). -/
def expireRefresh (s : State) : State :=
  match s.dp.refreshTimer with
  | some _ =>
    let s1 := queueTokens refreshTokens s
    s1.setDp { s1.dp with refreshTimer := some s1.tables.timing.refresh }
  | none => s

/-- The start tokens, in order (R178). -/
def startTokens : List Token :=
  [.wheelBrake .left, .wheelBrake .right, .bladeStop .bladeA, .bladeStop .bladeB, .bladeStop .bladeC]

/-- The drive entry d has been written (R37, R48, R159, R177). -/
def driveWritten (d : Drive) (s : State) : State :=
  let s1 := setDriveRec d freshDriveRec s
  let s2 :=
    if s1.tables.mapped d then
      match d with
      | .wheel w => queueToken (.wheelBrake w) s1
      | .blade b => queueToken (.bladeStop b) s1
      | .deck => if s1.env.held.deck = 0 then s1 else queueToken .height s1
    else s1.setDp { s1.dp with queue := s1.dp.queue.filter fun t => t.drive ≠ d }
  let s3 := match d with
    | .blade b => takePercent b 0 s2
    | .wheel _ | .deck => refresh s2
  formDriveConditions s3

end Sys2Proof.Machine
end

