-- ==== Sys2Proof/Machine/Operands.lean ====
section
/-! DEFINITION. Operand forms: the payloads of the orders (R143) and of the samples (section 11.2), and the free byte of a missing
tag or code. -/

namespace Sys2Proof.Machine

/-- Kind byte 1, the four bytes after it (R143). -/
def parseWheelSpeed : List Byte → Option Order
  | [l0, l1, r0, r1] => some (.wheelSpeed (s16 l0 l1) (s16 r0 r1))
  | _ => none

def parseBladeSpeed : List Byte → Option Order
  | [sel, r0, r1] => some (.bladeSpeed sel.toNat (u16 r0 r1))
  | _ => none

def parseBladeStart : List Byte → Option Order
  | [] => some .bladeStart
  | _ :: _ => none

def parseBladeStop : List Byte → Option Order
  | [] => some .bladeStop
  | _ :: _ => none

def parseDeckHeight : List Byte → Option Order
  | [mm] => some (.deckHeight mm.toNat)
  | _ => none

def parseBrake : List Byte → Option Order
  | [d] => some (.brake d.toNat)
  | _ => none

/-- An activity request without a further byte (R143). -/
def parsePlain (o : Order) : List Byte → Option Order
  | [] => some o
  | _ :: _ => none

def parseGoHome : List Byte → Option Order
  | [v] => some (.goHome v)
  | _ => none

def parseRunManoeuvre : List Byte → Option Order
  | [m] => some (.runManoeuvre m.toNat)
  | _ => none

/-- Pitch, roll, heading (section 11.2). -/
def parseIncline : List Byte → Option InclineSample
  | [p0, p1, r0, r1, h0, h1] => some ⟨s16 p0 p1, s16 r0 r1, u16 h0 h1⟩
  | _ => none

def parseContact : List Byte → Option Byte
  | [b] => some b
  | _ => none

/-- A charge percent above 100 is taken as 100 (R91); a charging flag other than 0 is set (R211). -/
def parsePower : List Byte → Option PowerSample
  | [pct, b0, b1, d0, d1, c0, c1, t, flag] =>
    some ⟨min 100 pct.toNat, u16 b0 b1, u16 d0 d1, s16 c0 c1, s8 t, flag ≠ 0⟩
  | _ => none

def parseRain : List Byte → Option Nat
  | [w] => some w.toNat
  | _ => none

/-- The next free byte. -/
def takeFree (s : State) : Byte × State := (Config.freeByte s.fresh, s.setFresh (s.fresh + 1))

/-- The first byte of a list, a free byte when there is none. -/
def headOrFree (l : List Byte) (s : State) : Byte × State :=
  match l with
  | b :: _ => (b, s)
  | [] => takeFree s

end Sys2Proof.Machine
end

