-- ==== Sys2Proof/Machine/Samples.lean ====
section
/-! DEFINITION. The samples of the four nodes of the sensor table (R89 to R92) and what the homing unit does with a power
sample (R128, R129, R131). -/

namespace Sys2Proof.Machine

/-- R36: a value beyond ±900 is taken as ±900. -/
def clampAngle (x : Int) : Int := clampInt (-900) 900 x

/-- R90, R36, R110: an INCLINE-SAMPLE. The pitch and roll stand before the node's return is handed out, so that the slope cap goes
straight to the new band. The slope cap is derived, and its SPEED tokens join, before TILT is formed, whose HALT follows with the tokens of its own:
the rules give no order of the two (DESIGN CHOICE, log entry 38). The sample is kept as sent, its pitch and roll not brought into ±900 (DESIGN CHOICE,
log entry 39). TILT is formed, and its HALT taken, before the heading reaches the executor (DESIGN CHOICE, log entry 38). -/
def useInclineSample (node : Byte) (payload : List Byte) (s : State) : State :=
  let n := s.tables.sensor.incline
  match parseIncline payload with
  | none => s
  | some x =>
    if n.present = false ∨ n.node ≠ node then s
    else
      let pitch := clampAngle x.pitch
      let roll := clampAngle x.roll
      let s1 := (s.setHaz { s.haz with kept := { s.haz.kept with incline := x, inclineTaken := true } }).setEnv
        { s.env with pitch := pitch, roll := roll }
      let s2 := refresh (arrive 4 s1)
      let tilt := hysteresis s2.haz.sources[srcTilt].cond s2.tables.sensor.tilt (slopeOf pitch roll)
      headingToEscape x.heading (setCondition srcTilt tilt s2)

/-- R89: a CONTACT-SAMPLE: LIFT, then BUMP-LEFT, then BUMP-RIGHT, each response of the sample being an event of its own at the activity unit with its
own advance of the epoch (DEDUCED, log entry 17). The byte is kept as received, bits 4 to 7 with it (R211; DESIGN CHOICE, log
entry 45). -/
def useContactSample (node : Byte) (payload : List Byte) (s : State) : State :=
  let n := s.tables.sensor.contact
  match parseContact payload with
  | none => s
  | some b =>
    if n.present = false ∨ n.node ≠ node then s
    else
      let s1 := arrive 5 (s.setHaz { s.haz with kept := { s.haz.kept with contact := b, contactTaken := true } })
      setCondition srcBumpRight (contactBumpRight b)
        (setCondition srcBumpLeft (contactBumpLeft b) (setCondition srcLift (contactLift b) s1))

/-- R129: the confirm count reached the dock confirm value with the report mark clear. -/
def testConfirm (s : State) : State :=
  match s.engaged? with
  | none => s
  | some r =>
    if s.tables.home.dockConfirm ≤ r.confirm ∧ s.home.reported = false then
      actEvent confirmDock (s.setHome { s.home with reported := true })
    else s

/-- R128: a power sample at a steering FOLLOW. -/
def dockContact (contact : Bool) (s : State) : State :=
  match s.engaged? with
  | none => s
  | some r =>
    match r.phase, contact with
    | .approach, true => testConfirm (writeWheels 0 0 (setFollow { r with phase := .contact, confirm := 1 } s))
    | .contact, true => testConfirm (setFollow { r with confirm := min s.tables.home.dockConfirm (r.confirm + 1) } s)
    | .contact, false => clearReported (setFollow { r with phase := .approach, confirm := 0 } s)
    | .approach, false | .seek, _ | .track, _ => s

/-- A power sample reaches the homing unit (R122, R128, R131). -/
def powerToHoming (x : PowerSample) (s : State) : State :=
  let contact := decide (s.tables.home.dockMv ≤ x.dockMv)
  match s.act.stack.docked? with
  | some _ => chargeWatch contact x.percent s
  | none => dockContact contact s

/-- R91: a POWER-SAMPLE. BATTERY-LOW is formed, and its response taken, before the sample reaches the homing unit (DESIGN CHOICE, log
entry 38). -/
def usePowerSample (node : Byte) (payload : List Byte) (s : State) : State :=
  let n := s.tables.sensor.power
  match parsePower payload with
  | none => s
  | some x =>
    if n.present = false ∨ n.node ≠ node then s
    else
      let s1 := arrive 6 (s.setHaz { s.haz with kept := { s.haz.kept with power := x, powerTaken := true } })
      powerToHoming x (setCondition srcBatteryLow (batteryCond s1) s1)

/-- R92: a RAIN-SAMPLE. -/
def useRainSample (node : Byte) (payload : List Byte) (s : State) : State :=
  let n := s.tables.sensor.rain
  match parseRain payload with
  | none => s
  | some w =>
    if n.present = false ∨ n.node ≠ node then s
    else
      let s1 := arrive 7 (s.setHaz { s.haz with kept := { s.haz.kept with wetness := w, wetnessTaken := true } })
      setCondition srcRain (hysteresis s1.haz.sources[srcRain].cond s1.tables.sensor.rainLevel w) s1

end Sys2Proof.Machine
end

