-- ==== Sys2Proof/Machine/Ports.lean ====
section
/-! DEFINITION. The port interface (chapter 9): acceptance, the intake table, the mirror queue, the reply places. -/

namespace Sys2Proof.Machine

/-- The bit of a port in an allowed-ports field (section 11.4). -/
def Port.bit : Port → Nat
  | .cp => 0
  | .sp => 1
  | .dp => 2

/-- An entry decides a frame of an identifier on a port (R183, R185). -/
def IntakeEntry.selects (e : IntakeEntry) (port : Port) (ident : BitVec 12) : Bool :=
  e.valid && e.ports.getLsbD (Port.bit port) && ident &&& e.mask = e.base &&& e.mask

/-- The action of the first entry that matches (R185). -/
def Tables.intakeAction (t : Tables) (port : Port) (ident : BitVec 12) : Option IntakeAction :=
  (t.intake.toList.find? fun e => e.selects port ident).map IntakeEntry.action

/-- The frame identifier (R182). -/
def Frame.ident (f : Frame) : BitVec 12 := f.cls ++ f.h.node

/-- A copy joins the mirror queue, the oldest leaving a queue of eight (R191). -/
def mirrorCopy (bytes : List Byte) (s : State) : State :=
  s.setPort { s.port with
    mirrors := (if s.port.mirrors.length < 8 then s.port.mirrors else s.port.mirrors.drop 1) ++ [bytes] }

/-- A frame of a defined class goes through the intake table; `use` is what its user does (R185). -/
def throughIntake (port : Port) (f : Frame) (use : State → State) (s : State) : State :=
  let copy (s : State) : State := if port = .cp then s else mirrorCopy (frameBytes f.cls f.h f.payload) s
  match s.tables.intakeAction port f.ident with
  | some .use => use s
  | some .useMirror => use (copy s)
  | some .mirror => copy s
  | some .discard | none => s

/-- R95, R188: a frame is accepted on CP: the liveness timer restarts and LINK-SILENT's condition is false, before the contents are
used. -/
def acceptCp (s : State) : State :=
  setCondition srcLinkSilent false (s.setPort { s.port with liveness := some s.tables.timing.liveness })

/-- The liveness timer expires (R188). -/
def expireLiveness (s : State) : State :=
  match s.port.liveness with
  | some _ => setCondition srcLinkSilent true (s.setPort { s.port with liveness := none })
  | none => s

/-- While the WN610 drives the DP line nothing is received there (R166). -/
def receives (port : Port) (s : State) : Bool :=
  match port, s.dp.cycle with
  | .dp, .sending _ => false
  | _, _ => true

/-- R168: a DRIVE-STATUS of the node whose wait the event just before has ended by its timer: it came with the expiry, before the next frame
began (log entry 41). -/
def racedReply (port : Port) (f : Frame) (s : State) : Bool :=
  port = .dp && f.cls = 6#4 && s.dp.raced = some f.h.node

/-- An accepted frame of a defined class outside the bypass: discarded unless READY (R186), then the intake table (R185). -/
def deliver (port : Port) (f : Frame) (use : State → State) (s : State) : State :=
  if s.isReady = false ∨ (receives port s || racedReply port f s) = false ∨ 24 < f.payload.length then s
  else throughIntake port f use (if port = .cp then acceptCp s else s)

/-- An accepted frame of an undefined class (R182). -/
def undefinedClass (port : Port) (cls : BitVec 4) (payload : List Byte) (s : State) : State :=
  if s.isReady = false ∨ 24 < payload.length ∨ port ≠ .cp then s
  else enterRefusal .undefined cls.toNat 0 0 (acceptCp s)

/-! ### Replies (R189, R192, R211) -/

/-- A list cut into pieces of 19, one empty piece for an empty list; `fuel` bounds the pieces. -/
def cutData : Nat → List Byte → List (List Byte)
  | 0, l => [l]
  | fuel + 1, l => if l.length ≤ 19 then [l] else l.take 19 :: cutData fuel (l.drop 19)

/-- A reply is built and joins the reply queue (R189, R192). -/
def enqueueReply (request tag : Byte) (code : Code) (offset : Nat) (data : List Byte) (s : State) : State :=
  s.setPort { s.port with
    replies := s.port.replies ++ [⟨request, tag, code, offset, s.act.epoch, 0, cutData data.length data⟩] }

/-- The reply places in use: the replies queued, the reply whose last frame is going out, the operation in flight (R189). -/
def placesUsed (s : State) : Nat :=
  s.port.replies.length + (match s.port.line with
    | .sending (.reply true) _ => 1
    | .sending _ _ | .free | .cutOff => 0) + (if s.mgmt.op.isSome then 1 else 0)

/-- The management bypass (R186, R195): a request for node 0x01 needs a free place; in LOADING it is answered NOT-READY, in READY it is
handed to `handle`. Any other node address goes through the intake table without a user. -/
def bypass (h : Header) (payload : List Byte) (handle : State → State) (s : State) : State :=
  if h.node ≠ 0x01#8 then deliver .cp ⟨7, h, payload⟩ id s
  else if s.live = false ∨ 24 < payload.length then s
  else if s.mgmt.startup = .loading then
    if placesUsed s < 4 then
      let (code, s1) := headOrFree payload s
      let (tag, s2) := headOrFree (payload.drop 1) s1
      enqueueReply code tag .notReady 0 [] s2
    else s
  else
    let s1 := acceptCp s
    if placesUsed s1 < 4 then handle s1 else s1

/-! ### Orders (R142, R143, R153) -/

/-- A drive command with its kind byte; a payload that does not suit it is refused at offset 3 (R143). -/
def useDriveOrder (h : Header) (kind : Byte) (o : Option Order) (s : State) : State :=
  match o with
  | none => enterRefusal .undefined clsDriveCommand kind 3 s
  | some o => (takeOrder o (effectiveRank s.tables h.rank) h.epoch 0 s).1

/-- A drive command whose kind is none of the six (R143). -/
def useUndefinedKind (payload : List Byte) (s : State) : State :=
  let (kind, s1) := headOrFree payload s
  enterRefusal .undefined clsDriveCommand kind 4 s1

/-- An activity request with its request code; `parse` reads the bytes after the tag (R143, R153). -/
def handleOrder (h : Header) (code : Byte) (rest : List Byte) (parse : List Byte → Option Order) (s : State) : State :=
  let (tag, s1) := headOrFree rest s
  match rest, parse (rest.drop 1) with
  | _ :: _, some o =>
    let (s2, c, d) := takeOrder o (effectiveRank s1.tables h.rank) 0 tag s1
    enqueueReply code tag c d [] s2
  | _, _ => enqueueReply code tag .undefined 3 [] (enterRefusal .undefined clsMgmtRequest code 3 s1)

end Sys2Proof.Machine
end

