-- ==== Sys2Proof/Machine/TableFields.lean ====
section
/-! DEFINITION. The twelve tables as their chapters and section 11.4 lay them out: fields, widths, ranges, the checks of a write or an
image, the stored image as bytes. -/

namespace Sys2Proof.Machine

/-- The twelve tables (section 11.4). -/
inductive TableId where
  | intake | coil | loop | distance | envelope | gate | drive | hazard | manoeuvre | home | timing | sensor
  deriving DecidableEq, Repr

/-- The tables in id order. -/
def TableId.all : List TableId :=
  [.intake, .coil, .loop, .distance, .envelope, .gate, .drive, .hazard, .manoeuvre, .home, .timing, .sensor]

/-- The table an id names: 0 to 11. -/
def TableId.named (n : Nat) : Option TableId := TableId.all[n]?

/-- The entry counts (R198). -/
def TableId.entries : TableId → Nat
  | .intake => 16
  | .coil => 4
  | .loop => 8
  | .distance => 8
  | .envelope => 12
  | .gate => 72
  | .drive => 6
  | .hazard => 16
  | .manoeuvre => 72
  | .home => 1
  | .timing => 1
  | .sensor => 1

/-- How a field is stored: a boolean, an unsigned byte, an unsigned or signed pair of bytes (section 11.4). -/
inductive FieldKind where
  | flag | u8 | u16 | s16
  deriving DecidableEq, Repr

/-- The width of a field in bytes. -/
def FieldKind.width : FieldKind → Nat
  | .flag | .u8 => 1
  | .u16 | .s16 => 2

/-- A field as bytes. -/
def FieldKind.encode (k : FieldKind) (v : Int) : List Byte :=
  match k with
  | .flag | .u8 => enc1 v
  | .u16 | .s16 => enc2 v

/-- A field read from the bytes at the front of a list. A boolean other than 0 reads as 1 (R211). -/
def FieldKind.decode (k : FieldKind) (l : List Byte) : Int :=
  let b0 := l.getD 0 0
  let b1 := l.getD 1 0
  match k with
  | .flag => if b0 = 0 then 0 else 1
  | .u8 => b0.toNat
  | .u16 => Machine.u16 b0 b1
  | .s16 => Machine.s16 b0 b1

/-- What a table's chapter does with a field's value: takes any, clamps it, refuses it above a largest code, refuses all but the two signs,
sets it back to a fixed value, clears bits. `fixedCode` is the fixed field that holds a code: a code that names nothing is refused, not set back
(DESIGN CHOICE, log entry 49). -/
inductive FieldRule where
  | any
  | clamp (lo hi : Int)
  | code (largest : Int)
  | sign
  | fixed (v : Int)
  | fixedCode (largest v : Int)
  | bits (keep : BitVec 16)
  deriving DecidableEq, Repr

/-- A value under its rule: none when it is refused, else the value that stands. -/
def FieldRule.apply (r : FieldRule) (v : Int) : Option Int :=
  match r with
  | .any => some v
  | .clamp lo hi => some (clampInt lo hi v)
  | .code largest => if largest < v then none else some v
  | .sign => if v = 1 ∨ v = 255 then some v else none
  | .fixed w => some w
  | .fixedCode largest w => if largest < v then none else some w
  | .bits keep => some (BitVec.ofInt 16 v &&& keep).toNat

/-- A field: how it is stored and what is done with its values. -/
structure Field where
  kind : FieldKind
  rule : FieldRule
  deriving DecidableEq, Repr

/-! ### The fields of each table, in order (section 11.4) -/

/-- R183, R184. -/
def intakeFields : List Field :=
  [⟨.flag, .any⟩, ⟨.u16, .bits 0x0FFF⟩, ⟨.u16, .bits 0x0FFF⟩, ⟨.u8, .bits 7⟩, ⟨.u8, .code 3⟩]

/-- R1, R2. -/
def coilFields : List Field :=
  [⟨.u8, .any⟩, ⟨.u8, .code 3⟩, ⟨.u8, .clamp 1 255⟩, ⟨.u16, .clamp 5 500⟩, ⟨.flag, .any⟩]

/-- R5, R6. Tlose is clamped after the others. -/
def loopFields : List Field :=
  [⟨.flag, .any⟩, ⟨.u8, .code 2⟩, ⟨.u8, .sign⟩, ⟨.u16, .any⟩, ⟨.u8, .code 3⟩, ⟨.u16, .clamp 0 2048⟩, ⟨.u16, .any⟩,
    ⟨.u8, .clamp 1 8⟩, ⟨.u8, .clamp 1 8⟩, ⟨.u8, .any⟩, ⟨.u8, .clamp 1 16⟩, ⟨.u16, .clamp 100 5000⟩]

/-- R22. -/
def distanceFields : List Field := [⟨.u16, .clamp 0 4095⟩, ⟨.u16, .clamp 0 1000⟩]

/-- The top of the bound range of the group band `i` belongs to (R33). -/
def bandTop (i : Nat) : Int := if i / 4 = 1 then 900 else 1000

/-- R33, R34. -/
def bandFields (i : Nat) : List Field :=
  [⟨.u16, if i % 4 = 3 then .fixed (bandTop i) else .clamp 0 (bandTop i)⟩, ⟨.u16, .clamp 0 1000⟩]

/-- R139, R140: cells 2 to 5 are fixed. A disposition above 2 that is written to one of them is refused with RANGE, and one in an image makes the
image bad, as R139 says of every cell; it is not set back as R140 says of every write to a fixed cell (DESIGN CHOICE, log entry 49). -/
def gateFields (i : Nat) : List Field :=
  if 2 ≤ i ∧ i ≤ 5 then [⟨.flag, .fixed 1⟩, ⟨.u8, .fixed 3⟩, ⟨.u8, .fixedCode 2 1⟩]
  else [⟨.flag, .any⟩, ⟨.u8, .clamp 0 3⟩, ⟨.u8, .code 2⟩]

/-- R157, R158: entries 0 and 1 are wheels, 2 to 4 blades, 5 the deck. -/
def driveFields (i : Nat) : List Field :=
  let wheel := decide (i < 2)
  let blade := decide (2 ≤ i ∧ i < 5)
  [⟨.flag, .any⟩, ⟨.u8, .any⟩, ⟨.u16, if wheel then .clamp 1 10000 else .fixed 0⟩,
    ⟨.u16, if blade then .clamp 1 65535 else .fixed 0⟩, ⟨.u16, if wheel then .clamp 1 65535 else .fixed 0⟩,
    ⟨.u16, if wheel then .clamp 1 1000 else if blade then .clamp 0 4000 else .fixed 0⟩]

/-- R81: sources 0, 1, 2 and 15 are fixed. A response above 4 that is written to one of them is refused, and one in an image makes the image bad;
it is not set back to HALT (DESIGN CHOICE, log entry 49). -/
def hazardFields (i : Nat) : List Field :=
  let isFixed := decide (i ≤ 2 ∨ i = 15)
  [⟨.flag, if isFixed then .fixed 1 else .any⟩, ⟨.u8, if isFixed then .fixedCode 4 4 else .code 4⟩, ⟨.u8, .code 7⟩,
    ⟨.u16, .clamp 0 1000⟩, ⟨.u16, .clamp 0 10000⟩]

/-- R101, R102: entries 0 to 7 are headers, the others steps. An index of 72 or above, which is no entry, is given the fields of a step (DESIGN
CHOICE, log entry 51). -/
def manoeuvreFields (i : Nat) : List Field :=
  if i < 8 then [⟨.u8, .clamp 0 8⟩]
  else [⟨.s16, .clamp (-1000) 1000⟩, ⟨.s16, .clamp (-1000) 1000⟩, ⟨.u8, .code 2⟩, ⟨.u16, .clamp 1 60000⟩, ⟨.u8, .code 1⟩,
    ⟨.u16, .any⟩]

/-- R119, R120, R39, R103: `chainFloor` is the least chain limit allowed (R103). -/
def homeFields (chainFloor : Nat) : List Field :=
  [⟨.u8, .code 7⟩, ⟨.u8, .code 7⟩, ⟨.u8, .sign⟩, ⟨.s16, .clamp (-500) 500⟩, ⟨.u16, .clamp 1 1000⟩, ⟨.u8, .any⟩,
    ⟨.u16, .clamp 0 1000⟩, ⟨.u16, .clamp 0 1000⟩, ⟨.u16, .clamp 0 1000⟩, ⟨.u16, .clamp 0 1000⟩, ⟨.u16, .clamp 0 4095⟩,
    ⟨.u16, .clamp 0 4095⟩, ⟨.u16, .any⟩, ⟨.u8, .clamp 1 10⟩, ⟨.u16, .clamp 10 2000⟩, ⟨.u8, .code 7⟩, ⟨.u16, .clamp 0 1000⟩,
    ⟨.u8, .clamp 0 100⟩] ++
  List.replicate 4 ⟨.u16, .clamp 0 1000⟩ ++
  [⟨.u16, .fixed 0⟩, ⟨.u16, .fixed 0⟩, ⟨.u16, .clamp 500 60000⟩, ⟨.u8, .clamp chainFloor 7⟩]

/-- R171, R187. -/
def timingFields : List Field :=
  [⟨.u8, .clamp 2 50⟩, ⟨.u8, .clamp 20 200⟩, ⟨.u8, .clamp 1 3⟩, ⟨.u16, .clamp 50 2000⟩]

/-- R84. -/
def sensorFields : List Field :=
  (List.replicate 4 [Field.mk .flag .any, ⟨.u8, .any⟩, ⟨.u16, .clamp 5 500⟩]).flatten ++
  [⟨.u16, .clamp 21 900⟩, ⟨.u8, .clamp 21 255⟩, ⟨.u8, .clamp 0 100⟩, ⟨.u16, .clamp 100 1000⟩, ⟨.u16, .clamp 0 10000⟩]

/-- The fields of entry `i` of a table. -/
def TableId.fields (id : TableId) (i chainFloor : Nat) : List Field :=
  match id with
  | .intake => intakeFields
  | .coil => coilFields
  | .loop => loopFields
  | .distance => distanceFields
  | .envelope => bandFields i
  | .gate => gateFields i
  | .drive => driveFields i
  | .hazard => hazardFields i
  | .manoeuvre => manoeuvreFields i
  | .home => homeFields chainFloor
  | .timing => timingFields
  | .sensor => sensorFields

/-! ### Entries as rows of numbers -/

/-- A boolean as stored. -/
def rawFlag (b : Bool) : Int := if b then 1 else 0

/-- A sign as stored: 0x01 or 0xFF. -/
def Sign.raw : Sign → Int
  | .plus => 1
  | .minus => 255

def Sign.ofRaw (v : Int) : Sign := if v = 255 then .minus else .plus

def IntakeAction.code : IntakeAction → Nat
  | .use => 0
  | .useMirror => 1
  | .mirror => 2
  | .discard => 3

def IntakeAction.ofCode : Nat → IntakeAction
  | 0 => .use
  | 1 => .useMirror
  | 2 => .mirror
  | _ => .discard

def Role.code : Role → Nat
  | .front => 0
  | .left => 1
  | .right => 2
  | .rear => 3

def Role.ofCode : Nat → Role
  | 0 => .front
  | 1 => .left
  | 2 => .right
  | _ => .rear

def LoopClass.code : LoopClass → Nat
  | .perimeter => 0
  | .island => 1
  | .guide => 2

def LoopClass.ofCode : Nat → LoopClass
  | 0 => .perimeter
  | 1 => .island
  | _ => .guide

def Disposition.code : Disposition → Nat
  | .take => 0
  | .refuse => 1
  | .defer => 2

def Disposition.ofCode : Nat → Disposition
  | 0 => .take
  | 1 => .refuse
  | _ => .defer

def Response.code : Response → Nat
  | .note => 0
  | .slow => 1
  | .escape => 2
  | .ret => 3
  | .halt => 4

def Response.ofCode : Nat → Response
  | 0 => .note
  | 1 => .slow
  | 2 => .escape
  | 3 => .ret
  | _ => .halt

def LimitKind.code : LimitKind → Nat
  | .dist => 0
  | .time => 1
  | .turn => 2

def LimitKind.ofCode : Nat → LimitKind
  | 0 => .dist
  | 1 => .time
  | _ => .turn

def IntakeEntry.raw (e : IntakeEntry) : List Int :=
  [rawFlag e.valid, e.base.toNat, e.mask.toNat, e.ports.toNat, e.action.code]

def CoilEntry.raw (e : CoilEntry) : List Int := [e.node.toNat, e.role.code, e.gain, e.period, rawFlag e.present]

def LoopEntry.raw (e : LoopEntry) : List Int :=
  [rawFlag e.enabled, e.cls.code, e.polarity.raw, e.code.toNat, e.refCoil.val, e.tlock, e.tlose, e.lockCount, e.loseCount,
    e.slip, e.alpha, e.fadeTime]

def GateCell.raw (e : GateCell) : List Int := [rawFlag e.present, e.rankLimit, e.disp.code]

def DriveEntry.raw (e : DriveEntry) : List Int :=
  [rawFlag e.present, e.node.toNat, e.scale, e.nominal, e.stall, e.maximum]

def HazardEntry.raw (e : HazardEntry) : List Int :=
  [rawFlag e.enabled, e.response.code, e.manoeuvre.val, e.slowCap, e.hold]

def EscStep.raw (e : EscStep) : List Int :=
  [e.left, e.right, e.kind.code, e.amount, rawFlag e.stop, e.mask.toNat]

def HomeTable.raw (h : HomeTable) : List Int :=
  [h.perimeter.val, h.guide.val, h.sense.raw, h.seekOffset, h.window, h.kp, h.turnLimit, h.seekBase, h.trackBase,
    h.approachBase, h.capture, h.approach, h.dockMv, h.dockConfirm, h.maxFollow, h.undock.val, h.outside, h.resumeLevel,
    h.capIdle, h.capMow, h.capFollow, h.capEscape, 0, 0, h.stepLimit, h.chainLimit]

def SensorNode.raw (n : SensorNode) : List Int := [rawFlag n.present, n.node.toNat, n.period]

def SensorTable.raw (x : SensorTable) : List Int :=
  x.incline.raw ++ x.contact.raw ++ x.power.raw ++ x.rain.raw ++
    [(x.tilt : Int), x.rainLevel, x.returnLevel, x.overload, x.wireDelay]

/-- Entry `i` of a table as a row of numbers in field order; an empty row for an entry the table does not have. -/
def Tables.rawEntry (t : Tables) (id : TableId) (i : Nat) : List Int :=
  match id with
  | .intake => (t.intake[i]?.map IntakeEntry.raw).getD []
  | .coil => (t.coil[i]?.map CoilEntry.raw).getD []
  | .loop => (t.loop[i]?.map LoopEntry.raw).getD []
  | .distance => (t.dist[i]?.map fun b => [(b.f : Int), b.d]).getD []
  | .envelope => (t.bands[i]?.map fun b => [(b.bound : Int), b.cap]).getD []
  | .gate => (t.gate[i]?.map GateCell.raw).getD []
  | .drive => (t.drive[i]?.map DriveEntry.raw).getD []
  | .hazard => (t.hazard[i]?.map HazardEntry.raw).getD []
  | .manoeuvre =>
    if i < 8 then (t.counts[i]?.map fun n => [(n : Int)]).getD [] else (t.steps[i - 8]?.map EscStep.raw).getD []
  | .home => t.home.raw
  | .timing => [t.timing.replyTimeout, t.timing.refresh, t.timing.rankFloor, t.timing.liveness]
  | .sensor => t.sensor.raw

/-- A number of a row that holds a checked entry. -/
def rowNat (r : List Int) (n : Nat) : Nat := (r.getD n 0).toNat

def rowByte (r : List Int) (n : Nat) : Byte := BitVec.ofNat 8 (rowNat r n)

def rowFlag (r : List Int) (n : Nat) : Bool := r.getD n 0 ≠ 0

def intakeOfRow (r : List Int) : IntakeEntry :=
  ⟨rowFlag r 0, BitVec.ofNat 12 (rowNat r 1), BitVec.ofNat 12 (rowNat r 2), BitVec.ofNat 3 (rowNat r 3),
    .ofCode (rowNat r 4)⟩

def coilOfRow (r : List Int) : CoilEntry :=
  ⟨rowByte r 0, .ofCode (rowNat r 1), rowNat r 2, rowNat r 3, rowFlag r 4⟩

def loopOfRow (r : List Int) : LoopEntry :=
  ⟨rowFlag r 0, .ofCode (rowNat r 1), .ofRaw (r.getD 2 1), BitVec.ofNat 16 (rowNat r 3), Fin.ofNat 4 (rowNat r 4), rowNat r 5,
    rowNat r 6, rowNat r 7, rowNat r 8, rowNat r 9, rowNat r 10, rowNat r 11⟩

def driveOfRow (r : List Int) : DriveEntry :=
  ⟨rowFlag r 0, rowByte r 1, rowNat r 2, rowNat r 3, rowNat r 4, rowNat r 5⟩

def hazardOfRow (r : List Int) : HazardEntry :=
  ⟨rowFlag r 0, .ofCode (rowNat r 1), Fin.ofNat 8 (rowNat r 2), rowNat r 3, rowNat r 4⟩

def stepOfRow (r : List Int) : EscStep :=
  ⟨r.getD 0 0, r.getD 1 0, .ofCode (rowNat r 2), rowNat r 3, rowFlag r 4, BitVec.ofNat 16 (rowNat r 5)⟩

def homeOfRow (r : List Int) : HomeTable :=
  { perimeter := Fin.ofNat 8 (rowNat r 0), guide := Fin.ofNat 8 (rowNat r 1), sense := .ofRaw (r.getD 2 1)
    seekOffset := r.getD 3 0, window := rowNat r 4, kp := rowNat r 5, turnLimit := rowNat r 6, seekBase := rowNat r 7
    trackBase := rowNat r 8, approachBase := rowNat r 9, capture := rowNat r 10, approach := rowNat r 11
    dockMv := rowNat r 12, dockConfirm := rowNat r 13, maxFollow := rowNat r 14, undock := Fin.ofNat 8 (rowNat r 15)
    outside := rowNat r 16, resumeLevel := rowNat r 17, capIdle := rowNat r 18, capMow := rowNat r 19
    capFollow := rowNat r 20, capEscape := rowNat r 21, stepLimit := rowNat r 24, chainLimit := rowNat r 25 }

def nodeOfRow (r : List Int) (n : Nat) : SensorNode := ⟨rowFlag r n, rowByte r (n + 1), rowNat r (n + 2)⟩

def sensorOfRow (r : List Int) : SensorTable :=
  { incline := nodeOfRow r 0, contact := nodeOfRow r 3, power := nodeOfRow r 6, rain := nodeOfRow r 9
    tilt := rowNat r 12, rainLevel := rowNat r 13, returnLevel := rowNat r 14, overload := rowNat r 15
    wireDelay := rowNat r 16 }

/-- Entry `i` of a table replaced by a checked row. -/
def Tables.setRow (t : Tables) (id : TableId) (i : Nat) (r : List Int) : Tables :=
  match id with
  | .intake => { t with intake := t.intake.setIfInBounds i (intakeOfRow r) }
  | .coil => { t with coil := t.coil.setIfInBounds i (coilOfRow r) }
  | .loop => { t with loop := t.loop.setIfInBounds i (loopOfRow r) }
  | .distance => { t with dist := t.dist.setIfInBounds i ⟨rowNat r 0, rowNat r 1⟩ }
  | .envelope => { t with bands := t.bands.setIfInBounds i ⟨rowNat r 0, rowNat r 1⟩ }
  | .gate => { t with gate := t.gate.setIfInBounds i ⟨rowFlag r 0, rowNat r 1, .ofCode (rowNat r 2)⟩ }
  | .drive => { t with drive := t.drive.setIfInBounds i (driveOfRow r) }
  | .hazard => { t with hazard := t.hazard.setIfInBounds i (hazardOfRow r) }
  | .manoeuvre =>
    if i < 8 then { t with counts := t.counts.setIfInBounds i (rowNat r 0) }
    else { t with steps := t.steps.setIfInBounds (i - 8) (stepOfRow r) }
  | .home => { t with home := homeOfRow r }
  | .timing => { t with timing := ⟨rowNat r 0, rowNat r 1, rowNat r 2, rowNat r 3⟩ }
  | .sensor => { t with sensor := sensorOfRow r }

/-! ### The checks of an entry -/

/-- Every field under its rule, from field number `n` on: the number of the first field refused, or the row that
stands. -/
def checkFields : Nat → List Field → List Int → Except Nat (List Int)
  | _, [], _ => .ok []
  | _, _ :: _, [] => .ok []
  | n, f :: fs, v :: vs =>
    match f.rule.apply v with
    | none => .error n
    | some w => (checkFields (n + 1) fs vs).map (w :: ·)

/-- R6: Tlose is brought below Tlock. -/
def boundTlose (r : List Int) : List Int :=
  let tlock := r.getD 5 0
  if tlock ≤ r.getD 6 0 then r.set 6 (if tlock = 0 then 0 else tlock - 1) else r

/-- R184: base bits that the mask leaves uncompared are cleared. -/
def maskBase (r : List Int) : List Int :=
  r.set 1 (BitVec.ofInt 16 (r.getD 1 0) &&& BitVec.ofInt 16 (r.getD 2 0)).toNat

/-- The entry's own checks and clamps: the number of the field that is refused, or the row that stands. -/
def TableId.checkEntry (id : TableId) (i chainFloor : Nat) (r : List Int) : Except Nat (List Int) :=
  match checkFields 0 (id.fields i chainFloor) r with
  | .error n => .error n
  | .ok row =>
    .ok (match id with
      | .loop => boundTlose row
      | .intake => maskBase row
      | .coil | .distance | .envelope | .gate | .drive | .hazard | .manoeuvre | .home | .timing | .sensor => row)

/-! ### The checks across entries -/

/-- The addresses in use (R158): each with its table, its entry and the numbers of its address and present fields. -/
structure AddressUse where
  id : TableId
  entry : Nat
  field : Nat
  presentField : Nat
  node : Byte
  deriving DecidableEq, Repr

def SensorTable.nodes (x : SensorTable) : List SensorNode := [x.incline, x.contact, x.power, x.rain]

/-- The address uses of the present coils, sensor nodes and mapped drives. -/
def Tables.addresses (t : Tables) : List AddressUse :=
  ((List.finRange 4).filterMap fun c =>
    if t.coil[c].present then some ⟨.coil, c.val, 0, 4, t.coil[c].node⟩ else none) ++
  (t.sensor.nodes.mapIdx fun n x => (n, x)).filterMap (fun (n, x) =>
    if x.present then some ⟨.sensor, 0, 3 * n + 1, 3 * n, x.node⟩ else none) ++
  ((List.finRange 6).filterMap fun d =>
    if t.drive[d].present then some ⟨.drive, d.val, 1, 0, t.drive[d].node⟩ else none)

/-- An address is outside 0x02 to 0xFE or met twice among the uses (R2, R84, R158). Both are tested with the checks across entries, so that a bad
field of a later named entry decides the offset before a present entry's address outside the range (R200; DESIGN CHOICE, log entry 21). -/
def badAddress (uses : List AddressUse) (u : AddressUse) : Bool :=
  u.node = 0x00#8 || u.node = 0x01#8 || u.node = 0xFF#8 || decide (2 ≤ uses.countP fun v => v.node = u.node)

/-- R22: breakpoint `i` breaks the order of F with a neighbour. That both entries of a pair out of order fail, so that the lower written one is the
refused one, and that an entry is held against its neighbours alone, R200 leaves open (DESIGN CHOICE, log entry 21). -/
def breaksF (t : Tables) (i : Nat) : Bool :=
  let pair (j : Nat) : Bool := match t.dist[j]?, t.dist[j + 1]? with
    | some a, some b => decide (a.f ≤ b.f)
    | _, _ => false
  pair i || (0 < i && pair (i - 1))

/-- R22: breakpoint `i` breaks the order of D with a neighbour; both entries of a pair out of order fail, as for F (DESIGN CHOICE, log entry 21). -/
def breaksD (t : Tables) (i : Nat) : Bool :=
  let pair (j : Nat) : Bool := match t.dist[j]?, t.dist[j + 1]? with
    | some a, some b => decide (b.d < a.d)
    | _, _ => false
  pair i || (0 < i && pair (i - 1))

/-- R34: the bounds of bands 0 to 2 of a group are not strictly increasing next to band `i`. R34 and R200 do not say which band of a pair out of
order fails: the model lets both fail, so that the lower written one gives the offset, and holds a band against its neighbours alone (DESIGN
CHOICE, log entry 21). -/
def breaksBound (t : Tables) (i : Nat) : Bool :=
  let pair (j : Nat) : Bool := match t.bands[j]?, t.bands[j + 1]? with
    | some a, some b => decide (j % 4 ≤ 1) && decide (b.bound ≤ a.bound)
    | _, _ => false
  pair i || (0 < i && pair (i - 1))

/-- The fields of entry `i` that make the tables fail a check across entries, none when they pass, in the order in which one of them is taken for
the refused value (`WriteReq.conflict`): F before D of a breakpoint; of an address conflict the address before the present field, in the sensor
table node by node (inclination, contact, power, rain). R200 gives no order of the two values (DESIGN CHOICE, log entry 21). -/
def Tables.conflicts (t : Tables) (id : TableId) (i : Nat) : List Nat :=
  match id with
  | .distance => (if breaksF t i then [0] else []) ++ (if breaksD t i then [1] else [])
  | .envelope => if breaksBound t i then [0] else []
  | .coil | .sensor | .drive =>
    (t.addresses.filter fun u => u.id = id ∧ u.entry = i ∧ badAddress t.addresses u).flatMap
      fun u => [u.field, u.presentField]
  | .intake | .loop | .gate | .hazard | .manoeuvre | .home | .timing => []

/-! ### The stored image (R203, R205, section 11.4) -/

/-- Row bytes in field order. -/
def encodeRow : List Field → List Int → List Byte
  | f :: fs, v :: vs => f.kind.encode v ++ encodeRow fs vs
  | _, _ => []

/-- Entry `i` of a table as bytes. -/
def Tables.entryBytes (t : Tables) (id : TableId) (i : Nat) : List Byte :=
  encodeRow (id.fields i 1) (t.rawEntry id i)

/-- The bytes of `count` entries from `first` on. -/
def Tables.entriesBytes (t : Tables) (id : TableId) (first count : Nat) : List Byte :=
  (List.range' first count).flatMap (t.entryBytes id)

/-- The table bytes of an image. -/
def Tables.imageBody (t : Tables) : List Byte := TableId.all.flatMap fun id => t.entriesBytes id 0 id.entries

/-- The length of the table bytes of a format 1 image. -/
def imageLength : Nat := 1453

/-- The format 1 image. -/
def Tables.image (t : Tables) : List Byte :=
  let body := [0x01#8] ++ enc2 imageLength ++ t.imageBody
  body ++ checkBytes body

/-- Bytes read as the fields of a row. -/
def decodeRow : List Field → List Byte → List Int
  | [], _ => []
  | f :: fs, l => f.kind.decode l :: decodeRow fs (l.drop f.kind.width)

/-- The bytes of the fields of a list. -/
def fieldsWidth (fs : List Field) : Nat := (fs.map fun f => f.kind.width).sum

/-- The reading of an image: the tables so far, the bytes still to read, whether a field was brought into range. -/
structure ImageRead where
  tables : Tables
  rest : List Byte
  clamped : Bool
  deriving DecidableEq, Repr

/-- One entry is read and checked. -/
def readEntry (chainFloor : Nat) (x : ImageRead) (at' : TableId × Nat) : Option ImageRead :=
  let fields := at'.1.fields at'.2 chainFloor
  let row := decodeRow fields x.rest
  match at'.1.checkEntry at'.2 chainFloor row with
  | .error _ => none
  | .ok row' =>
    some ⟨x.tables.setRow at'.1 at'.2 row', x.rest.drop (fieldsWidth fields), x.clamped || decide (row' ≠ row)⟩

/-- Every entry of every table, in id order and index order. -/
def allEntries : List (TableId × Nat) := TableId.all.flatMap fun id => (List.range id.entries).map fun i => (id, i)

/-- The table bytes of an image read: none when a check of an entry refuses. -/
def readTables (chainFloor : Nat) (body : List Byte) : Option ImageRead :=
  allEntries.foldlM (readEntry chainFloor) ⟨builtinTables, body, false⟩

/-- The tables pass every check across entries. -/
def Tables.consistent (t : Tables) : Bool := allEntries.all fun (id, i) => (t.conflicts id i).isEmpty

/-- R203: the tests of an image, over the 1458 bytes the memory answers from its first address on: none when it is bad, else its tables with out
of range fields brought into range, and whether there were any. -/
def checkImage (chainFloor : Nat) (l : List Byte) : Option (Tables × Bool) :=
  let body := l.take (3 + imageLength)
  if l.length < 5 + imageLength ∨ l.take 3 ≠ [0x01#8] ++ enc2 imageLength ∨
      (l.drop (3 + imageLength)).take 2 ≠ checkBytes body then none
  else match readTables chainFloor (body.drop 3) with
    | none => none
    | some x => if x.tables.consistent then some (x.tables, x.clamped) else none

end Sys2Proof.Machine
end

