-- ==== Sys2Proof/Machine/Status.lean ====
section
/-! DEFINITION. The data of the READ-STATUS replies and of the notices: the items of the rule of each, in its order, each encoded by its kind
(section 11.3). Items a rule gives only in a condition ("when", "if so") are left out when it does not hold
(log entry 10). -/

namespace Sys2Proof.Machine

/-! ### Codes (section 11.3) -/

def SrcState.code : SrcState → Nat
  | .quiet => 0
  | .raised => 1
  | .held => 2

def Phase.code : Phase → Nat
  | .seek => 0
  | .track => 1
  | .approach => 2
  | .contact => 3

def ExePhase.code : ExePhase → Nat
  | .running => 1
  | .frozen => 2
  | .ending => 3

def TrackState.code : TrackState → Nat
  | .off => 0
  | .search => 1
  | .locked => 2
  | .fading => 3

def CellMark.code : CellMark → Nat
  | .empty => 0
  | .fresh => 1
  | .stale => 2

def NodeLive.code : NodeLive → Nat
  | .pending => 0
  | .fresh => 1
  | .silent => 2

def DriveNode.code : DriveNode → Nat
  | .pending => 0
  | .active => 1
  | .faulted => 2
  | .unresponsive => 3

/-- The token numbers, in the order of R163. -/
def Token.code : Token → Nat
  | .wheelSpeed .left => 0
  | .wheelBrake .left => 1
  | .wheelSpeed .right => 2
  | .wheelBrake .right => 3
  | .bladeSpeed b => 4 + 3 * b.idx.val
  | .bladeStart b => 5 + 3 * b.idx.val
  | .bladeStop b => 6 + 3 * b.idx.val
  | .height => 13

/-- The cause byte of a record (section 11.3). -/
def ActRecord.causeByte : ActRecord → Nat
  | .idle => 0x14
  | .mow _ => 0x10
  | .follow r => if r.byReturn then 0x11 else 0x10
  | .docked _ => 0x13
  | .escape r => match r.cause with
    | .source i => i.val
    | .request => 0x10
    | .undock => 0x12
  | .halt _ => 0xFF

/-- The entry epoch of a record; that of IDLE is 0 (R75). -/
def ActRecord.entry : ActRecord → Byte
  | .idle => 0
  | .mow r => r.entry
  | .follow r => r.entry
  | .docked r => r.entry
  | .escape r => r.entry
  | .halt r => r.entry

/-- The three bytes of a HALT cause set (section 11.3). -/
def CauseSet.bytes (c : CauseSet) : List Byte :=
  enc2 c.sources.toNat ++ [(0#6 ++ BitVec.ofBool c.noDock ++ BitVec.ofBool c.pause : BitVec 8)]

/-- The kind-specific fields of a record, in the order of R51. -/
def ActRecord.fieldBytes : ActRecord → List Byte
  | .idle | .mow _ => []
  | .follow r => enc1 r.loop.val ++ enc1 r.phase.code ++ enc4 r.travelled ++ encFlag r.endAfter ++ enc1 r.confirm
  | .docked r => encFlag r.contact ++ encFlag r.endAfter
  | .escape r => enc1 r.man.val ++ enc1 r.step.val ++ enc4 r.progress ++ enc2 r.elapsed ++ enc1 r.chain
  | .halt r => r.causes.bytes

/-- A record as R74 and section 11.3 give it. -/
def ActRecord.bytes (r : ActRecord) : List Byte :=
  enc1 r.kind.code ++ enc1 r.causeByte ++ [r.entry] ++ r.fieldBytes

/-- A list of items with its count before it (section 11.3). -/
def encList (l : List (List Byte)) : List Byte := enc1 l.length ++ l.flatten

/-- What remains of a timer, 0 when it is stopped. -/
def remaining (t : Option Nat) : Nat := t.getD 0

/-! ### READ-STATUS data -/

/-- R74, R118, R136. -/
def stackData (s : State) : List Byte :=
  enc1 s.act.stack.depth ++ [s.act.epoch] ++ encFlag s.act.bladeEnable ++ encFlag s.act.shadow ++
    encFlag s.act.pendingReturn ++ encList (s.act.stack.records.map ActRecord.bytes) ++
    (match s.exe.held with
      | none => [0x00, 0xFF]
      | some h => enc1 h.phase.code ++ [h.entry]) ++
    encFlag s.engaged?.isSome ++ encOpt2 (s.home.guideView.map Int.ofNat) ++ encFlag s.home.reported ++
    encFlag s.home.ready ++ encOpt1 s.home.lastPercent

/-- The requested or held value of a drive. -/
def DriveValues.of (v : DriveValues) : Drive → Int
  | .wheel .left => v.left
  | .wheel .right => v.right
  | .blade b => v.blades.get b
  | .deck => v.deck

/-- R49. The slope value takes 2 bytes, as the caps do (DESIGN CHOICE, log entry 10). -/
def envelopeData (s : State) : List Byte :=
  let c := s.env.caps
  enc2 c.proximity ++ enc2 c.slope ++ enc2 c.load ++ enc2 c.hazard ++ enc2 c.activity ++ enc2 s.env.k ++
    encOpt2 s.env.n ++ enc2 (slopeOf s.env.pitch s.env.roll) ++ encFlag s.haz.inclineFresh ++
    (Blade.all.flatMap fun b => enc2 (s.env.percents.get b)) ++ enc2 (loadValue s.tables s.env.percents) ++
    encFlag s.act.bladeEnable ++ enc1 s.top.code ++
    Drive.all.flatMap fun d => enc2 (s.env.req.of d) ++ enc2 (s.env.held.of d) ++ encFlag (s.tables.mapped d)

/-- R31, the tracker of a loop. -/
def loopData (l : Fin 8) (s : State) : List Byte :=
  let t := s.dec.trackers[l]
  encFlag s.tables.loop[l].enabled ++ enc1 t.state.code ++ enc1 t.rho.val ++ enc1 t.cand.val ++ enc1 t.run ++ enc1 t.lose ++
    enc2 (remaining t.fade) ++ encOpt2 s.dec.n ++ encFlag s.dec.outside ++ encFlag s.dec.wireLost

/-- R31, an estimate cell. The sign is 0x01 or 0xFF, as a polarity is (log entry 10). -/
def cellData (l : Fin 8) (c : Fin 4) (s : State) : List Byte :=
  let x := s.dec.cell l c
  enc1 x.mark.code ++ enc2 x.con ++ enc2 x.f ++ enc2 x.d ++ enc1 x.sign.raw ++ enc2 x.e ++ enc2 x.used ++
    enc1 s.tables.coil[c].role.code ++ enc2 s.dec.intakes[c].missed

/-- R99, one source. -/
def sourceData (s : State) (i : Fin 16) : List Byte :=
  let r := s.haz.sources[i]
  let h := s.tables.hazard[i]
  encFlag r.cond ++ enc1 r.state.code ++ encFlag h.enabled ++ enc1 h.response.code ++ enc2 (remaining r.hold) ++ encFlag r.owed ++
    encFlag r.raisedSince ++ encFlag (s.haz.pending.getLsbD i.val)

/-- R99, a sensor node. The remaining deadline of a SILENT node, whose timer is stopped, is sent as 0, which the rule and section 11.3 leave open
against the none value (DESIGN CHOICE, log entry 10). -/
def nodeData (s : State) (n : Fin 8) : Option (List Byte) :=
  (s.haz.nodes[n]).map fun r => [s.tables.nodeAddress n] ++ enc1 r.state.code ++ enc2 (remaining r.deadline)

/-- R99. The nodes go in the order coils 0 to 3, inclination, contact, power, rain; pitch, roll and heading take 2 bytes each, the contact byte
and the wetness 1; the bytes behind a clear taken mark are sent, as they stand (DESIGN CHOICE, log entry 10). -/
def hazardsData (s : State) : List Byte :=
  let k := s.haz.kept
  ((List.finRange 16).flatMap (sourceData s)) ++
    ([16, 17, 18, 19].flatMap fun n => encFlag (s.haz.pending.getLsbD n)) ++ enc2 (remaining s.haz.wireDelay) ++
    encList ((List.finRange 8).filterMap (nodeData s)) ++
    encFlag k.contactTaken ++ [k.contact] ++
    encFlag k.inclineTaken ++ enc2 k.incline.pitch ++ enc2 k.incline.roll ++ enc2 k.incline.heading ++
    encFlag k.powerTaken ++ enc1 k.power.percent ++ enc2 k.power.batteryMv ++ enc2 k.power.dockMv ++ enc2 k.power.currentMa ++
    enc1 k.power.temp ++ encFlag k.power.charging ++
    encFlag k.wetnessTaken ++ enc1 k.wetness

/-- R179, one drive. The last status goes as in its frame (section 11.2): tick delta, current and speed in 2 bytes each, of which section 11.3 lists
no width for the tick delta, then the fault byte (DESIGN CHOICE, log entry 10). -/
def driveData (s : State) (d : Drive) : List Byte :=
  let r := s.dp.recOf d
  encFlag (s.tables.mapped d) ++ [(s.tables.driveOf d).node] ++ enc1 r.state.code ++ enc1 r.miss ++
    (match d with
      | .wheel w => enc2 r.acc ++ enc1 r.stallRun ++ encFlag (stallCond s w)
      | .blade _ => enc1 r.overRun
      | .deck => []) ++
    encFlag r.taken ++ enc2 r.status.tick ++ enc2 r.status.current ++ enc2 r.status.speed ++ [r.status.fault]

/-- R179, the DP cycle. -/
def cycleData : DpCycle → List Byte
  | .idle => [0x00]
  | .sending f => [0x01] ++ enc1 f.token.code ++ [f.address]
  | .awaitReply f => [0x02] ++ enc1 f.token.code ++ [f.address]

/-- R179. -/
def drivesData (s : State) : List Byte :=
  Drive.all.flatMap (driveData s) ++ cycleData s.dp.cycle ++ enc2 (remaining s.dp.replyTimer) ++
    encList (s.dp.queue.map fun t => enc1 t.code) ++ enc2 (remaining s.dp.refreshTimer) ++
    encFlag s.dp.stallLeft ++ encFlag s.dp.stallRight ++ encFlag s.dp.overload ++ encFlag s.dp.fault

/-- The fields of a refusal record (R154). -/
def RefusalRec.bytes (r : RefusalRec) : List Byte :=
  enc1 r.reason.num ++ enc1 r.cls ++ [r.kind] ++ enc1 r.detail ++ enc1 r.further

/-- R156: the record or the empty mark, and the deferred slot. -/
def refusalData (s : State) : List Byte :=
  (match s.gate.refusal with
    | none => [0xFF]
    | some r => r.bytes) ++
  (match s.gate.deferred with
    | none => encFlag false
    | some d =>
      encFlag true ++ enc1 d.order.cls ++ [d.order.kindByte, d.tag] ++ enc1 d.rank ++ [d.epoch, d.entry])

def Startup.code : Startup → Nat
  | .loading => 0
  | .ready => 1

def ImageState.code : ImageState → Nat
  | .valid => 0
  | .defaults => 1

def StoredMark.code : StoredMark → Nat
  | .good => 0
  | .bad => 1
  | .absent => 2

def OpKind.code : OpKind → Nat
  | .store => 1
  | .load => 2

/-- R197: the four fields of R194, the elapsed time of an operation in flight, the image length, which is that of the table
bytes, as in the image's header (DESIGN CHOICE, log entry 10). -/
def imageData (s : State) : List Byte :=
  enc1 s.mgmt.startup.code ++ enc1 s.mgmt.image.code ++ enc1 s.mgmt.mark.code ++
    (match s.mgmt.op with
      | none => [0x00]
      | some o => enc1 o.kind.code ++ enc2 o.elapsed) ++
    enc2 imageLength

/-! ### Notices (R98, R155, R18, R134, section 11.2) -/

/-- The lowest of a list of numbers. -/
def least (l : List Nat) : Option Nat := l.min?

/-- The source value of a hazard notice (R98). A drive table write or a load that resets a wheel's record leaves it no last status (R161), and a
STALL-LEFT or STALL-RIGHT notice built then gives 0 as the last measured speed: R98 gives neither 0 nor a value for none (DESIGN CHOICE, log
entry 53). -/
def sourceValue (s : State) (i : Fin 16) : Option Int :=
  match i.val with
  | 0 => some (if s.pins.stopLow then 1 else 0)
  | 1 | 3 | 4 => some s.haz.kept.contact.toNat
  | 2 => some (slopeOf s.env.pitch s.env.roll)
  | 5 => some (s.dp.recOf (.wheel .left)).status.speed
  | 6 => some (s.dp.recOf (.wheel .right)).status.speed
  | 7 => some (loadValue s.tables s.env.percents)
  | 8 => s.dec.n
  | 9 => some (remaining s.haz.wireDelay)
  | 10 => some 0
  | 11 => (Drive.all.find? (driveBad s)).map fun d => (d.idx.val : Int)
  | 12 => (least ((List.finRange 8).filterMap fun n =>
      if nodeSilent s.haz n then some (s.tables.nodeAddress n).toNat else none)).map Int.ofNat
  | 13 => some s.haz.kept.wetness
  | 14 => some s.haz.kept.power.percent
  | _ => some s.tables.home.chainLimit

/-- The payload of a hazard notice: source, state, raised-since flag and detail (R98). -/
def hazardNotice (s : State) (i : Fin 16) : List Byte :=
  let r := s.haz.sources[i]
  let h := s.tables.hazard[i]
  enc1 i.val ++ enc1 r.state.code ++ encFlag r.raisedSince ++
    [(0#5 ++ BitVec.ofBool r.owed ++ BitVec.ofBool h.enabled ++ BitVec.ofBool r.cond : BitVec 8)] ++
    enc1 h.response.code ++ enc2 (remaining r.hold) ++ encOpt2 (sourceValue s i)

/-- The CHARGE detail (R134). -/
def chargeDetail (s : State) : List Byte :=
  let docked := s.act.stack.docked?
  let contact := match docked with
    | some r => r.contact
    | none => false
  let p := s.haz.kept.power
  [(0#4 ++ BitVec.ofBool p.charging ++ BitVec.ofBool s.home.ready ++ BitVec.ofBool contact ++
      BitVec.ofBool docked.isSome : BitVec 8)] ++
    encOpt1 s.home.lastPercent ++ enc2 p.currentMa ++ enc2 p.dockMv

/-- The REFUSAL detail (R155): beside the mark of an empty record the four other bytes are free (log entry 6). -/
def refusalDetail (s : State) : List Byte × State :=
  match s.gate.refusal with
  | some r => (r.bytes, s)
  | none =>
    ([0xFF#8] ++ (List.range 4).map (fun n => Config.freeByte (s.fresh + n)), s.setFresh (s.fresh + 4))

/-- The payload of a notice, built now (R97, R98). -/
def noticePayload (i : Fin 20) (s : State) : List Byte × State :=
  if h : i.val < 16 then (hazardNotice s ⟨i.val, h⟩, s)
  else if i.val = 16 then ([16, 0, 0] ++ enc1 s.top.code ++ enc1 s.act.stack.depth ++ [s.act.epoch], s)
  else if i.val = 17 then
    let (d, s1) := refusalDetail s
    ([17, 0, 0] ++ d, s1)
  else if i.val = 18 then
    ([18, 0, 0] ++ s.dec.trackers.toList.flatMap fun t => enc1 (16 * t.state.code + t.rho.val), s)
  else ([19, 0, 0] ++ chargeDetail s, s)

end Sys2Proof.Machine
end

