-- ==== Sys2Proof/Machine/Arbiter.lean ====
section
/-! DEFINITION. The CP transmit arbiter (R190): each time the line is free it sends a reply frame, a notice or a mirror. -/

namespace Sys2Proof.Machine

/-- The header of the frames built for CP (R192). -/
def cpHeader (epoch : Byte) : Header := ownHeader 0x01 epoch

/-- A MGMT-REPLY frame: number `n` of its reply, the last one marked (R211). -/
def replyFrame (r : Reply) (n : Byte) (last : Bool) (chunk : List Byte) : List Byte :=
  frameBytes 8 (cpHeader r.epoch)
    ([r.request, r.tag] ++ enc1 r.code.num ++ enc1 r.offset ++
      [(BitVec.ofBool last ++ n.extractLsb' 0 7 : BitVec 8)] ++ chunk)

/-- The line carries a frame. -/
def sendOnCp (what : CpFrame) (bytes : List Byte) (s : State) : State :=
  s.setPort { s.port with line := .sending what bytes }

/-- The next frame of the oldest reply goes out; with its last frame the reply leaves the queue (R189, R190). -/
def sendReply (r : Reply) (rest : List Reply) (s : State) : State :=
  match r.chunks with
  | [] => s.setPort { s.port with replies := rest }
  | [c] => sendOnCp (.reply true) (replyFrame r r.next true c) (s.setPort { s.port with replies := rest })
  | c :: cs =>
    sendOnCp (.reply false) (replyFrame r r.next false c)
      (s.setPort { s.port with replies := { r with next := r.next + 1, chunks := cs } :: rest })

/-- The pending notice source with the lowest number (R97). -/
def lowestNotice (s : State) : Option (Fin 20) := (List.finRange 20).find? fun i => s.haz.pending.getLsbD i.val

/-- The marks a notice clears (R97). -/
def clearNotice (i : Fin 20) (s : State) : State :=
  let s1 := s.setHaz { s.haz with pending := s.haz.pending &&& ~~~BitVec.twoPow 20 i.val }
  if h : i.val < 16 then setSource ⟨i.val, h⟩ { s1.haz.sources[i.val]'h with raisedSince := false } s1 else s1

/-- A notice is built and goes out (R97, R192). -/
def sendNotice (i : Fin 20) (s : State) : State :=
  let (payload, s1) := noticePayload i s
  sendOnCp (.notice i) (frameBytes 9 (cpHeader s.act.epoch) payload) (clearNotice i s1)

/-- The pick of the arbiter on a free line (R190); during LOADING replies alone. -/
def pickFrame (s : State) : State :=
  match s.port.replies with
  | r :: rest => sendReply r rest s
  | [] =>
    if s.mgmt.startup = .loading then s
    else match lowestNotice s with
      | some i => sendNotice i s
      | none =>
        match s.port.mirrors with
        | m :: ms => sendOnCp .mirror m (s.setPort { s.port with mirrors := ms })
        | [] => s

/-- The output pins (R202, R212): DPDE high while a DP frame goes out, CPTX in the idle line state while no frame goes out, and while RESET is low
and the device has its supply MCLK low and MDIO released. -/
def State.outputs (s : State) : OutputPins :=
  { dpde := s.dpde
    cptxIdle := match s.port.line with
      | .sending _ _ => false
      | .free | .cutOff => true
    mclkHeldLow := s.pins.power && s.pins.resetLow
    mdioReleased := s.pins.power && s.pins.resetLow }

/-- The CP line is free: what was going out is out, and the arbiter picks (R190). -/
def lineFree (s : State) : State := pickFrame (s.setPort { s.port with line := .free })

end Sys2Proof.Machine
end

