-- ==== Sys2Proof/Machine/Startup.lean ====
section
/-! DEFINITION. Start-up, RESET and the READY settings (R202 to R204, R209), the image check (R203), the STOP input (R88). -/

namespace Sys2Proof.Machine

/-- Every block at its start value, every timer stopped, the built-in tables until the image check has put tables in place: the device as
power-on, a RESET or a loss of power leaves it (R202). The memory and what was last learnt of it stand, an operation in flight is abandoned
(R206). A press latched in the start-up that is abandoned is dropped with it (DESIGN CHOICE, log entry 40). -/
def startValues (s : State) : State :=
  { s with
    tables := builtinTables, dec := freshDecoder builtinTables, env := blankEnvelope, act := freshActivity
    haz := quietMonitor, exe := freshExecutor, home := freshHoming, gate := freshGate, dp := quietDrivePort
    port := freshPorts, mgmt := { s.mgmt with startup := .loading, op := none }
    pins := { s.pins with stopLatch := false }, reports := [] }

/-- R88: at READY STOP's condition is true when the input is low or a press was latched; a button that is up again is released within the
event, and the latch is cleared. -/
def applyStop (s : State) : State :=
  let pressed := s.pins.stopLow || s.pins.stopLatch
  let s1 := s.setPins { s.pins with stopLatch := false }
  if pressed then
    let s2 := setCondition srcStop true s1
    if s.pins.stopLow then s2 else setCondition srcStop false s2
  else s1

/-- Every block's runtime state at READY but for the port interface and the management unit, from the tables in place
(R204). -/
def readyBlocks (s : State) : State :=
  { s with
    dec := freshDecoder s.tables, env := blankEnvelope, act := freshActivity
    haz := { quietMonitor with pending := BitVec.twoPow 20 16 }, exe := freshExecutor, home := freshHoming
    gate := freshGate, dp := { quietDrivePort with refreshTimer := some s.tables.timing.refresh }, reports := [] }

/-- The receive states IDLE, no mirror, the liveness timer started (R193). -/
def readyPorts (s : State) : State :=
  s.setPort { s.port with rxCp := .idle, rxSp := .idle, rxDp := .idle, mirrors := []
                          liveness := some s.tables.timing.liveness }

/-- READY is reached with the tables in place (R204), in the order of R100. -/
def reachReady (s : State) : State :=
  let s1 := readyPorts (readyBlocks (s.setMgmt { s.mgmt with startup := .ready }))
  let s2 := (List.finRange 8).foldl (fun s n => pendNode n s) s1
  applyStop (startWireDelay (queueTokens startTokens (refresh (setActivityCap s2))))

/-- What the memory answers, and the memory after it (R203). -/
def readMemory (answer : MemoryRead) (s : State) : Option (List Byte) × State :=
  match answer with
  | .noAnswer => (none, s)
  | .held => (some s.mgmt.memory, s)
  | .bytes l => (some l, s.setMgmt { s.mgmt with memory := l })

/-- The stored image mark. -/
def setMark (m : StoredMark) (s : State) : State := s.setMgmt { s.mgmt with mark := m }

/-- The image state. -/
def setImage (m : ImageState) (s : State) : State := s.setMgmt { s.mgmt with image := m }

/-- The image check of start-up puts the tables in place (R203). -/
def placeTables (answer : MemoryRead) (s : State) : State :=
  match readMemory answer s with
  | (none, s1) => setImage .defaults (setMark .absent (s1.setTables builtinTables))
  | (some l, s1) =>
    match checkImage 1 l with
    | none => setImage .defaults (setMark .bad (s1.setTables builtinTables))
    | some (t, _) => setImage .valid (setMark .good (s1.setTables t))

/-- The image check has ended; the device reaches READY (R203, R204). -/
def imageChecked (answer : MemoryRead) (s : State) : State :=
  if s.live ∧ s.mgmt.startup = .loading then reachReady (placeTables answer s) else s

/-- What a RESTART does to the CP line: a frame going out is cut off (R190). -/
def CpLine.cut : CpLine → CpLine
  | .free => .free
  | .sending _ _ => .cutOff
  | .cutOff => .cutOff

/-- R210: an operation in flight is abandoned; an abandoned load brings the built-in tables. -/
def abandonOperation (s : State) : State :=
  let s1 := s.setMgmt { s.mgmt with op := none }
  match s.mgmt.op with
  | some ⟨.load, _, _⟩ => setImage .defaults (s1.setTables builtinTables)
  | some ⟨.store, _, _⟩ | none => s1

/-- A taken RESTART, short of its own reply (R209). -/
def restartDevice (s : State) : State :=
  let s1 := abandonOperation s
  reachReady (s1.setPort { s1.port with replies := [], line := s1.port.line.cut })

/-- The STOP level. -/
def setStopLevel (low : Bool) (s : State) : State := s.setPins { s.pins with stopLow := low }

/-- The falling edge of STOP (R88, R202). -/
def pressStop (s : State) : State :=
  let s1 := setStopLevel true s
  if s1.live = false then s1
  else if s1.mgmt.startup = .loading then s1.setPins { s1.pins with stopLatch := true }
  else setCondition srcStop true s1

/-- The rising edge of STOP (R88). -/
def releaseStop (s : State) : State :=
  let s1 := setStopLevel false s
  if s1.isReady then setCondition srcStop false s1 else s1

/-- Power-on begins start-up (R202). -/
def powerUp (s : State) : State := startValues (s.setPins { s.pins with power := true })

/-- The supply goes away (R206). -/
def powerDown (s : State) : State := startValues (s.setPins { s.pins with power := false })

/-- RESET goes low: the device is held (R202). -/
def resetFall (s : State) : State := startValues (s.setPins { s.pins with resetLow := true })

/-- RESET rises: start-up from the beginning (R202). -/
def resetRise (s : State) : State := startValues (s.setPins { s.pins with resetLow := false })

end Sys2Proof.Machine
end

