-- ==== Sys2Proof/Machine/Management.lean ====
section
/-! DEFINITION. The management unit (chapter 10): the check order of R196, table reads and writes with their side effects (R198 to R201),
the stored image (R205 to R208), RESTART (R209). -/

namespace Sys2Proof.Machine

/-- What a request is answered: reply code, offset byte, data. -/
structure Answer where
  code : Code
  offset : Nat
  data : List Byte
  deriving DecidableEq, Repr

/-- DONE with data. -/
def Answer.done (data : List Byte) : Answer := ⟨.done, 0, data⟩

/-- A refusal. -/
def Answer.no (c : Code) (offset : Nat) : Answer := ⟨c, offset, []⟩

/-- An answer goes out: a refusal is entered in the refusal record (R195), then the reply is built. -/
def giveAnswer (request tag : Byte) (a : Answer) (s : State) : State :=
  enqueueReply request tag a.code a.offset a.data
    (if a.code.refuses then enterRefusal a.code clsMgmtRequest request a.offset s else s)

/-- A request that is answered within its event: `f` sees the bytes after the tag. A request without a tag is too short (R196) and its
reply carries a free byte for the tag (log entry 6). -/
def answerRequest (request : Byte) (rest : List Byte) (f : List Byte → State → State × Answer) (s : State) : State :=
  match rest with
  | [] =>
    let (tag, s1) := takeFree s
    giveAnswer request tag (.no .undefined 3) s1
  | tag :: args =>
    let (s1, a) := f args s
    giveAnswer request tag a s1

/-! ### PING, READ-STATUS -/

/-- R197. -/
def pingAnswer (args : List Byte) (s : State) : State × Answer :=
  (s, if args = [] then .done [] else .no .undefined 3)

/-- A READ-STATUS without a further byte (R197). -/
def statusAnswer (data : State → List Byte) (args : List Byte) (s : State) : State × Answer :=
  (s, if args = [] then .done (data s) else .no .undefined 3)

/-- READ-STATUS(LOOPS): the loop number at offset 7 (R31). -/
def loopsAnswer (args : List Byte) (s : State) : State × Answer :=
  match args with
  | [l] => (s, if h : l.toNat < 8 then .done (loopData ⟨l.toNat, h⟩ s) else .no .range 7)
  | _ => (s, .no .undefined 3)

/-- READ-STATUS(CELLS): the loop number at offset 7, the coil number at offset 8 (R31). The loop is checked first where both are out of range
(DESIGN CHOICE, log entry 42). -/
def cellsAnswer (args : List Byte) (s : State) : State × Answer :=
  match args with
  | [l, c] =>
    (s, if h : l.toNat < 8 then
          if h' : c.toNat < 4 then .done (cellData ⟨l.toNat, h⟩ ⟨c.toNat, h'⟩ s) else .no .range 8
        else .no .range 7)
  | _ => (s, .no .undefined 3)

/-- READ-STATUS(REFUSAL) gives the record and empties it (R156). -/
def refusalAnswer (args : List Byte) (s : State) : State × Answer :=
  if args = [] then (s.setGate { s.gate with refusal := none }, .done (refusalData s)) else (s, .no .undefined 3)

/-- A READ-STATUS whose selector names none of the eight, or is missing (R197, R196). -/
def badSelector (args : List Byte) (s : State) : State × Answer :=
  (s, if args = [] then .no .undefined 3 else .no .undefined 6)

/-! ### READ-TABLE -/

/-- R198, R196. -/
def readTableAnswer (h : Header) (args : List Byte) (s : State) : State × Answer :=
  (s, match args with
    | id :: first :: count :: more =>
      match TableId.named id.toNat with
      | none => .no .undefined 6
      | some t =>
        if more ≠ [] then .no .undefined 3
        else if effectiveRank s.tables h.rank ≠ 1 then .no .rank 0
        else if t.entries ≤ first.toNat then .no .range 7
        else if count = 0 ∨ t.entries < first.toNat + count.toNat then .no .range 8
        else .done (s.tables.entriesBytes t first.toNat count.toNat)
    | _ => .no .undefined 3)

/-! ### WRITE-TABLE: the request -/

/-- A table write as received: table, first index, count, mask, values (R199). -/
structure WriteReq where
  id : TableId
  first : Nat
  count : Nat
  mask : BitVec 32
  values : List Byte
  deriving DecidableEq, Repr

/-- Bit n of the mask selects field n. -/
def WriteReq.selects (w : WriteReq) (n : Nat) : Bool := w.mask.getLsbD n

/-- The shape of the entries of a write, which is that of its first entry (R199). A MANOEUVRE write whose first index is 72 or above names no entry:
the checks of its mask and of its length, which come before RANGE at offset 7, take the six fields of a step; one whose count is 0 is given the shape
of its first index. R199 names no shape for either (DESIGN CHOICE, log entry 51). -/
def WriteReq.shape (w : WriteReq) : List Field := w.id.fields w.first 1

/-- The summed width of the selected fields below field `n`. -/
def WriteReq.widthBelow (w : WriteReq) (n : Nat) : Nat :=
  ((List.range n).filterMap fun k => if w.selects k then (w.shape[k]?).map fun f => f.kind.width else none).sum

/-- The summed width of the selected fields (R199). -/
def WriteReq.width (w : WriteReq) : Nat := w.widthBelow w.shape.length

/-- A manoeuvre write that mixes headers and steps (R199). -/
def WriteReq.mixed (w : WriteReq) : Bool :=
  w.id = .manoeuvre && decide (w.first < 8) && decide (8 < w.first + w.count)

/-- The offset a malformed mask is refused at, if it is (R199). -/
def WriteReq.badMask (w : WriteReq) : Option Nat :=
  if w.mask = 0 then some 9
  else ((List.range 32).find? fun n => w.selects n && decide (w.shape.length ≤ n)).map fun n => 9 + n / 8

/-- The four mask bytes (R199). -/
def maskOf (m0 m1 m2 m3 : Byte) : BitVec 32 := m3 ++ m2 ++ m1 ++ m0

/-- The entry indexes named. -/
def WriteReq.indexes (w : WriteReq) : List Nat := List.range' w.first w.count

/-- The offset of the value of field `n` of the `k`-th entry; of the entry's first value when the field is not
selected (R200). -/
def WriteReq.offset (w : WriteReq) (k n : Nat) : Nat :=
  13 + k * w.width + if w.selects n then w.widthBelow n else 0

/-- An entry as it would stand: the selected fields set to the written values, the others kept (R200). -/
def overlay (sel : Nat → Bool) : Nat → List Field → List Int → List Byte → List Int
  | n, f :: fs, v :: vs, l =>
    if sel n then f.kind.decode l :: overlay sel (n + 1) fs vs (l.drop f.kind.width)
    else v :: overlay sel (n + 1) fs vs l
  | _, _, _, _ => []

/-- The chain limit's lower bound: one more than the chain count of an ESCAPE in the stack (R103). -/
def chainFloor (s : State) : Nat :=
  match s.act.stack.esc with
  | some r => max 1 (r.chain + 1)
  | none => 1

/-- One named entry of a write: its index, the row as asked for, the row that stands. -/
structure WriteRow where
  index : Nat
  asked : List Int
  stands : List Int
  deriving DecidableEq, Repr

/-- The `k`-th named entry formed and checked; the offset of the refused value when it fails (R200). -/
def WriteReq.row (w : WriteReq) (t : Tables) (floor k : Nat) : Except Nat WriteRow :=
  let i := w.first + k
  let asked := overlay w.selects 0 (w.id.fields i floor) (t.rawEntry w.id i) (w.values.drop (k * w.width))
  match w.id.checkEntry i floor asked with
  | .error n => .error (w.offset k n)
  | .ok stands => .ok ⟨i, asked, stands⟩

/-- Every named entry formed and checked, in index order (R200). -/
def WriteReq.rows (w : WriteReq) (t : Tables) (floor : Nat) : Nat → Nat → Except Nat (List WriteRow)
  | _, 0 => .ok []
  | k, m + 1 =>
    match w.row t floor k with
    | .error o => .error o
    | .ok r => (w.rows t floor (k + 1) m).map (r :: ·)

/-- The tables with rows written. -/
def writeRows (id : TableId) (rows : List WriteRow) (t : Tables) : Tables :=
  rows.foldl (fun t r => t.setRow id r.index r.stands) t

/-- The offset a check across entries refuses the write at: the first named entry that fails (R200), and of its failing fields the first one
written in the order of `Tables.conflicts`, so the address of a node before its present field although the latter has the lower number in the sensor
and the drive table. Of a pair of breakpoints or bounds out of order both entries fail, so that the lower named one is taken (both DESIGN CHOICE,
log entry 21). -/
def WriteReq.conflict (w : WriteReq) (t : Tables) : Option Nat :=
  (List.range w.count).findSome? fun k =>
    match t.conflicts w.id (w.first + k) with
    | [] => none
    | n :: ns => some (w.offset k (((n :: ns).find? w.selects).getD n))

/-- The offset of the first written value that was changed (R200). -/
def WriteReq.firstChanged (w : WriteReq) (rows : List WriteRow) : Option Nat :=
  (List.range w.count).findSome? fun k => do
    let r ← rows[k]?
    let n ← (List.range r.asked.length).find? fun n => w.selects n && decide (r.asked[n]? ≠ r.stands[n]?)
    return w.offset k n

/-- DONE, or CLAMPED with its offset (R200). -/
def WriteReq.answer (w : WriteReq) (rows : List WriteRow) : Answer :=
  if rows.all fun r => r.asked = r.stands then .done [] else ⟨.clamped, (w.firstChanged rows).getD 0, []⟩

/-! ### Side effects (R201) -/

/-- R4, R86, R121: coil entry `c` has been written; `old` is the entry before. The outputs are re-evaluated when every entry has been written
(`tableWritten`, `replaceTables`). Where the write itself moves the FRONT coil, the guide view is dropped when the written coil was the front coil
before the write or is it after: R121 does not say which coil's cell counts (DESIGN CHOICE, log entry 54). -/
def coilWritten (c : Fin 4) (old : CoilEntry) (oldFront : Option (Fin 4)) (s : State) : State :=
  let now := s.tables.coil[c]
  let moved := decide (now.node ≠ old.node)
  let awaiting := now.present && (s.dec.intakes[c].awaiting || (old.present && moved))
  let s1 := setIntake c { freshIntake with awaiting := awaiting } (s.setDec (s.dec.emptyCoil c))
  let s2 := if old.present && (!now.present || moved) then s1.setDec (s1.dec.unavailable s1.tables c) else s1
  let s3 := if oldFront = some c ∨ s2.tables.frontCoil = some c then dropGuideView s2 else s2
  formSensorSilent (pendNode (coilNode c) s3)

/-- R7, R18, R121, R127: loop entry `l` has been written. The outputs are re-evaluated when every entry has been written. -/
def loopWritten (l : Fin 8) (s : State) : State :=
  let following := s.dec.trackers[l].following
  let s1 := s.setDec ((s.dec.setTracker l (freshTracker s.tables.loop[l].enabled)).emptyLoop l)
  let s2 := if following then loopLost l (markNotice 18 s1) else s1
  if l = s.tables.home.guide then dropGuideView s2 else s2

/-- R82: hazard entry `i` has been written; `old` is the entry before. -/
def hazardWritten (i : Fin 16) (old : HazardEntry) (s : State) : State :=
  let now := s.tables.hazard[i]
  let s1 :=
    if old.enabled ∧ now.enabled = false then
      let s2 := if s.srcState i = .quiet then s else moveSource i .quiet none s
      setOwed i false s2
    else s
  let s2 := if old.response = .escape ∧ now.response ≠ .escape then setOwed i false s1 else s1
  let s3 := refresh s2
  if old.enabled = false ∧ now.enabled ∧ s3.haz.sources[i].cond ∧ s3.srcState i = .quiet then
    actEvent (responseChange i) (moveSource i .raised none s3)
  else s3

/-- R39, R103, R121: the home table has been written. -/
def homeWritten (guideWritten : Bool) (s : State) : State :=
  refresh (setActivityCap (if guideWritten then dropGuideView s else s))

/-- The conditions formed from a node that has become not present are false (R87). -/
def nodeGone (was now : SensorNode) (sources : List (Fin 16)) (s : State) : State :=
  if was.present ∧ now.present = false then sources.foldl (fun s i => setCondition i false s) s else s

/-- R84, R86, R87, R36: the sensor table has been written. The slope cap falls to that of band 3 first, in a derivation of its own. Then the
conditions of the nodes that were removed become false, in the order TILT, LIFT, BUMP-LEFT, BUMP-RIGHT, BATTERY-LOW, RAIN, and last SENSOR-SILENT is
formed anew, each deriving K for itself where it moves the hazard cap. No rule orders these (DESIGN CHOICE, log entry 38). -/
def sensorWritten (old : SensorTable) (s : State) : State :=
  let now := s.tables.sensor
  let s1 := refresh (pendNode 7 (pendNode 6 (pendNode 5 (pendNode 4 s))))
  let s2 := nodeGone old.rain now.rain [srcRain]
    (nodeGone old.power now.power [srcBatteryLow]
      (nodeGone old.contact now.contact [srcLift, srcBumpLeft, srcBumpRight]
        (nodeGone old.incline now.incline [srcTilt] s1)))
  formSensorSilent s2

/-- The drive of a drive table entry. -/
def driveOfEntry (i : Nat) : Option Drive := Drive.all[i]?

/-- The side effects of entry `i` of a table, the tables being in place (R201); `old` is the tables before. -/
def entryWritten (id : TableId) (i : Nat) (old : Tables) (guideWritten : Bool) (s : State) : State :=
  match id with
  | .coil => if h : i < 4 then coilWritten ⟨i, h⟩ old.coil[i] old.frontCoil s else s
  | .loop => if h : i < 8 then loopWritten ⟨i, h⟩ s else s
  | .envelope => refresh s
  | .drive => match driveOfEntry i with
    | some d => driveWritten d s
    | none => s
  | .hazard => if h : i < 16 then hazardWritten ⟨i, h⟩ old.hazard[i] s else s
  | .home => homeWritten guideWritten s
  | .sensor => sensorWritten old.sensor s
  | .intake | .distance | .gate | .manoeuvre | .timing => s

/-- A table whose entries reset the decoder (R4, R7). -/
def TableId.resetsDecoder : TableId → Bool
  | .coil | .loop => true
  | .intake | .distance | .envelope | .gate | .drive | .hazard | .manoeuvre | .home | .timing | .sensor => false

/-- R201, section 1.6: the decoder's outputs are re-evaluated once, when every named coil or loop entry has been written and reset (DEDUCED,
log entry 36). -/
def tableWritten (id : TableId) (s : State) : State := if id.resetsDecoder then reevaluate s else s

/-- A write that has passed its checks is taken (R200, R201). -/
def WriteReq.take (w : WriteReq) (rows : List WriteRow) (s : State) : State :=
  let old := s.tables
  tableWritten w.id
    (w.indexes.foldl (fun s i => entryWritten w.id i old (w.selects 1) s) (s.setTables (writeRows w.id rows old)))

/-- Steps 6 and 7 of R196 for a write. The checks of every entry on its own come before the checks across entries, so that a value that fails
its own check is the one refused. A present entry's address outside 0x02 to 0xFE is tested with the checks across entries, as a conflict of
addresses is (R2, R84, R158, R200; DESIGN CHOICE, log entry 21). -/
def WriteReq.settle (w : WriteReq) (s : State) : State × Answer :=
  if w.id.entries ≤ w.first then (s, .no .range 7)
  else if w.count = 0 ∨ w.id.entries < w.first + w.count then (s, .no .range 8)
  else match w.rows s.tables (chainFloor s) 0 w.count with
    | .error o => (s, .no .range o)
    | .ok rows =>
      match w.conflict (writeRows w.id rows s.tables) with
      | some o => (s, .no .range o)
      | none => (w.take rows s, w.answer rows)

/-- R196, R199, R200: WRITE-TABLE. The shape of a manoeuvre write that names no entry is the model's choice (`WriteReq.shape`, log entry 51). -/
def writeTableAnswer (h : Header) (args : List Byte) (s : State) : State × Answer :=
  match args with
  | id :: first :: count :: m0 :: m1 :: m2 :: m3 :: values =>
    match TableId.named id.toNat with
    | none => (s, .no .undefined 6)
    | some t =>
      let w : WriteReq := ⟨t, first.toNat, count.toNat, maskOf m0 m1 m2 m3, values⟩
      if w.mixed then (s, .no .range 8)
      else match w.badMask with
        | some o => (s, .no .undefined o)
        | none =>
          if values.length ≠ w.count * w.width then (s, .no .undefined 3)
          else if effectiveRank s.tables h.rank ≠ 1 then (s, .no .rank 0)
          else if s.mgmt.op.isSome then (s, .no .busy 0)
          else if s.top.admitsWrites = false then (s, .no .active 0)
          else w.settle s
  | _ => (s, .no .undefined 3)

/-! ### The stored image -/

/-- The checks of STORE-IMAGE and LOAD-IMAGE (R196). -/
def imageRequestCheck (h : Header) (args : List Byte) (load : Bool) (s : State) : Option Answer :=
  if args ≠ [] then some (.no .undefined 3)
  else if effectiveRank s.tables h.rank ≠ 1 then some (.no .rank 0)
  else if s.mgmt.op.isSome then some (.no .busy 0)
  else if load ∧ s.top.admitsWrites = false then some (.no .active 0)
  else none

/-- A request that, when taken, is answered at its completion (R195). -/
def startOperation (request : Byte) (h : Header) (rest : List Byte) (kind : OpKind) (begin' : State → State)
    (s : State) : State :=
  match rest with
  | [] =>
    let (tag, s1) := takeFree s
    giveAnswer request tag (.no .undefined 3) s1
  | tag :: args =>
    match imageRequestCheck h args (kind = .load) s with
    | some a => giveAnswer request tag a s
    | none => begin' (s.setMgmt { s.mgmt with op := some ⟨kind, tag, 0⟩ })

/-- The store overwrites the image in place (R205); until its check word is written the memory holds no good image. -/
def beginStore (s : State) : State := setMark .bad (s.setMgmt { s.mgmt with memory := [] })

/-- The codes of STORE-IMAGE and LOAD-IMAGE (section 11.2). -/
def codeStore : Byte := 0x0B
def codeLoad : Byte := 0x0C
def codeRestart : Byte := 0x0D

/-- The check word is written (R205). -/
def completeStore (s : State) : State :=
  match s.mgmt.op with
  | some ⟨.store, tag, _⟩ =>
    giveAnswer codeStore tag (.done [])
      (s.setMgmt { s.mgmt with op := none, mark := .good, image := .valid, memory := s.tables.image })
  | some ⟨.load, _, _⟩ | none => s

/-- The memory stops answering during a store (R206). -/
def failStore (s : State) : State :=
  match s.mgmt.op with
  | some ⟨.store, tag, _⟩ =>
    giveAnswer codeStore tag (.no .range 0) (s.setMgmt { s.mgmt with op := none, mark := .absent })
  | some ⟨.load, _, _⟩ | none => s

/-- The side effects of a list of entries, one after another; `old` is the tables before. -/
def entriesWritten (l : List (TableId × Nat)) (old : Tables) (s : State) : State :=
  l.foldl (fun s x => entryWritten x.1 x.2 old true s) s

/-- R208: the loaded tables replace the tables in use, with the side effects of every entry in table id order. The coil and loop entries reset
every tracker, cell and intake record, and only then are the outputs re-evaluated (R32); table 0, which they precede here, has no effect. All
tables stand before the first effect, so that the derivation of table 4 already reads the loaded hazard table's SLOW caps (DESIGN CHOICE, log
entry 37). -/
def replaceTables (t : Tables) (s : State) : State :=
  let (decoder, others) := allEntries.partition fun x => x.1.resetsDecoder
  entriesWritten others s.tables (reevaluate (entriesWritten decoder s.tables (s.setTables t)))

/-- The outcome of a load (R208). -/
def loadOutcome (answer : MemoryRead) (s : State) : State × Answer :=
  match readMemory answer s with
  | (none, s1) => (setMark .absent s1, .no .range 0)
  | (some l, s1) =>
    match checkImage (chainFloor s1) l with
    | none => (setMark .bad s1, .no .range 0)
    | some (t, clamped) =>
      if s1.top.admitsWrites = false then (setMark .good s1, .no .active 0)
      else (replaceTables t (setImage .valid (setMark .good s1)), if clamped then ⟨.clamped, 0, []⟩ else .done [])

/-- A load completes (R208). -/
def completeLoad (answer : MemoryRead) (s : State) : State :=
  match s.mgmt.op with
  | some ⟨.load, tag, _⟩ =>
    let (s1, a) := loadOutcome answer (s.setMgmt { s.mgmt with op := none })
    giveAnswer codeLoad tag a s1
  | some ⟨.store, _, _⟩ | none => s

/-- RESTART (R209, R196). -/
def restartAnswer (h : Header) (args : List Byte) (s : State) : State × Answer :=
  if args ≠ [] then (s, .no .undefined 3)
  else if effectiveRank s.tables h.rank ≠ 1 then (s, .no .rank 0)
  else (restartDevice s, .done [])

end Sys2Proof.Machine
end

