-- ==== Sys2Proof/Machine/Accept.lean ====
section
/-! DEFINITION. A frame at its user (R182): every drive command, request, sample and status of section 11.2 by the bytes of its payload, for
the frames that carry no row of their own. -/

namespace Sys2Proof.Machine

/-- The order a drive command payload makes, after its kind byte (R143). -/
def parseDrive (kind : Nat) (rest : List Byte) : Option (Option Order) :=
  match kind with
  | 1 => some (parseWheelSpeed rest)
  | 2 => some (parseBladeSpeed rest)
  | 3 => some (parseBladeStart rest)
  | 4 => some (parseBladeStop rest)
  | 5 => some (parseDeckHeight rest)
  | 6 => some (parseBrake rest)
  | _ => none

/-- A DRIVE-COMMAND at the gate (R142, R143). -/
def useDriveCommand (h : Header) (payload : List Byte) (s : State) : State :=
  match payload with
  | [] => useUndefinedKind [] s
  | kind :: rest =>
    match parseDrive kind.toNat rest with
    | none => useUndefinedKind payload s
    | some o => useDriveOrder h kind o s

/-- The answer of a READ-STATUS by its selector (R197). -/
def statusBySelector (sel : Nat) : List Byte → State → State × Answer :=
  match sel with
  | 0 => statusAnswer stackData
  | 1 => statusAnswer envelopeData
  | 2 => loopsAnswer
  | 3 => cellsAnswer
  | 4 => statusAnswer hazardsData
  | 5 => statusAnswer drivesData
  | 6 => refusalAnswer
  | 7 => statusAnswer imageData
  | _ => fun args s => badSelector (0 :: args) s

/-- READ-STATUS with its tag and selector as received (R197). -/
def useReadStatus (rest : List Byte) (s : State) : State :=
  answerRequest 0x04 rest (fun args s => match args with
    | [] => badSelector [] s
    | sel :: more => statusBySelector sel.toNat more s) s

/-- An undefined request code (R195). -/
def useUndefinedCode (code : Byte) (rest : List Byte) (s : State) : State :=
  let (tag, s1) := headOrFree rest s
  giveAnswer code tag (.no .undefined 4) s1

/-- A request without even a code (R196): code and tag of the reply are free bytes (log entry 6). -/
def useEmptyRequest (s : State) : State :=
  let (code, s1) := takeFree s
  let (tag, s2) := takeFree s1
  giveAnswer code tag (.no .undefined 3) s2

/-- A MGMT-REQUEST at the management unit, by its request code (R195, section 11.2). -/
def useRequest (h : Header) (payload : List Byte) (s : State) : State :=
  match payload with
  | [] => useEmptyRequest s
  | code :: rest =>
    match code.toNat with
    | 1 => answerRequest code rest pingAnswer s
    | 2 => answerRequest code rest (readTableAnswer h) s
    | 3 => answerRequest code rest (writeTableAnswer h) s
    | 4 => useReadStatus rest s
    | 5 => handleOrder h code rest (parsePlain .startMow) s
    | 6 => handleOrder h code rest parseGoHome s
    | 7 => handleOrder h code rest (parsePlain .leaveDock) s
    | 8 => handleOrder h code rest (parsePlain .pause) s
    | 9 => handleOrder h code rest (parsePlain .resume) s
    | 10 => handleOrder h code rest parseRunManoeuvre s
    | 11 => startOperation code h rest .store beginStore s
    | 12 => startOperation code h rest .load id s
    | 13 => answerRequest code rest (restartAnswer h) s
    | _ => useUndefinedCode code rest s

/-- The user of a class on a port (R182). -/
def useFrame (port : Port) (f : Frame) (s : State) : State :=
  match port, f.cls.toNat with
  | .cp, 5 => useDriveCommand f.h f.payload s
  | .sp, 0 => useCoilSample f.h.node f.payload s
  | .sp, 1 => useInclineSample f.h.node f.payload s
  | .sp, 2 => useContactSample f.h.node f.payload s
  | .sp, 3 => usePowerSample f.h.node f.payload s
  | .sp, 4 => useRainSample f.h.node f.payload s
  | .dp, 6 => useDriveStatus f.h.node f.payload s
  | _, _ => s

/-- An accepted frame, whatever it is (R182, R185, R186). -/
def acceptFrame (port : Port) (f : Frame) (s : State) : State :=
  if 9 < f.cls.toNat then undefinedClass port f.cls f.payload s
  else if port = .cp ∧ f.cls = 7#4 then bypass f.h f.payload (useRequest f.h f.payload) s
  else deliver port f (useFrame port f) s

/-- A run of bytes on a port, ended by an idle gap (R180, R181): discarded without a trace, or accepted. -/
def receiveRun (port : Port) (run : List LineByte) (s : State) : State :=
  match checkRun (rxRun run) with
  | none => s
  | some f => acceptFrame port f s

end Sys2Proof.Machine
end

