-- ==== Sys2Proof/Machine/Finish.lean ====
section
/-! DEFINITION. What every command ends with, and the executor's events on their way to the activity unit (R117). -/

namespace Sys2Proof.Machine

/-- The answer of a meaning: the drive port master takes a token when its cycle is IDLE (R164), and the next state stands. -/
def finish (s : State) : Host.Outcome State Fault Refusal := .next (takeToken s)

/-- An event of the running device: nothing happens to it outside READY. -/
def whenReady (f : State → State) (s : State) : State := if s.isReady then f s else s

/-- The oldest report that a test names, and the reports without it. -/
def pickReport (p : Report → Bool) : List Report → Option (Report × List Report)
  | [] => none
  | r :: rest => if p r then some (r, rest) else (pickReport p rest).map fun x => (x.1, r :: x.2)

def Report.isCompletion : Report → Bool
  | .completion _ => true
  | .trap _ | .stopStepStart => false

def Report.isTrap : Report → Bool
  | .trap _ => true
  | .completion _ | .stopStepStart => false

def Report.isStopStep : Report → Bool
  | .stopStepStart => true
  | .completion _ | .trap _ => false

/-- The report names the ESCAPE on top (R69). -/
def Report.namesTop (r : Report) (s : State) : Bool :=
  match r, s.act.stack.esc with
  | .completion e, some x | .trap e, some x => s.top = .escape && x.entry = e
  | _, _ => false

/-- An executor event reaches the activity unit (R69, R114, R117). -/
def useReport (r : Report) (s : State) : State :=
  match r with
  | .completion _ => if r.namesTop s then actEvent popEscape s else s
  | .trap _ => if r.namesTop s then actEvent trap s else s
  | .stopStepStart => setBladeEnable false s

/-- The oldest report of a kind is delivered; without one nothing happens. -/
def deliverReport (p : Report → Bool) (s : State) : State :=
  match pickReport p s.reports with
  | none => s
  | some (r, rest) => useReport r (s.setReports rest)

end Sys2Proof.Machine
end

