-- ==== Sys2Proof/Machine/Lifecycle.lean ====
section
/-! DEFINITION. The meanings of the life of the device: supply, RESET, image check, the STOP input (R88, R202 to R206). -/

namespace Sys2Proof.Machine

/-- R202: power-on begins start-up. -/
def execPowerOn (s : State) : Host.Outcome State Fault Refusal :=
  finish (powerUp s)

/-- R202: while RESET is low the device is held. -/
def execResetLow (s : State) : Host.Outcome State Fault Refusal :=
  finish (resetFall s)

/-- R202: a rise of RESET restarts start-up. -/
def execResetRise (s : State) : Host.Outcome State Fault Refusal :=
  finish (resetRise s)

/-- R203, R204: tables are put in place and READY is reached. -/
def execImageCheckComplete (answer : MemoryRead) (s : State) : Host.Outcome State Fault Refusal :=
  finish (imageChecked answer s)

/-- R88: the falling edge of STOP. -/
def execStopPress (s : State) : Host.Outcome State Fault Refusal :=
  finish (pressStop s)

/-- R88: the rising edge of STOP. -/
def execStopRelease (s : State) : Host.Outcome State Fault Refusal :=
  finish (releaseStop s)

/-- R206: the supply goes away. -/
def execPowerLoss (s : State) : Host.Outcome State Fault Refusal :=
  finish (powerDown s)

end Sys2Proof.Machine
end

