-- ==== Sys2Proof/Machine/Frames.lean ====
section
/-! DEFINITION. The meanings of the frames: damaged and undefined ones, those without a user, the samples, the drive status (R167, R180 to R186). -/

namespace Sys2Proof.Machine

/-- R180, R181: a run of bytes that fails the check of the port leaves no trace. -/
def execDamagedFrame (port : Port) (run : List LineByte) (s : State) : Host.Outcome State Fault Refusal :=
  finish (if receives port s then receiveRun port run s else s)

/-- R182: an accepted frame of class 10 to 15. -/
def execUndefinedClassFrame (port : Port) (cls : BitVec 4) (h : Header) (payload : List Byte)
    (s : State) : Host.Outcome State Fault Refusal :=
  finish (acceptFrame port ⟨cls, h, payload⟩ s)

/-- R182, R185, R186: an accepted frame of a defined class without a row of its own. -/
def execFrameWithoutUser (port : Port) (cls : BitVec 4) (h : Header) (payload : List Byte)
    (s : State) : Host.Outcome State Fault Refusal :=
  finish (acceptFrame port ⟨cls, h, payload⟩ s)

/-- R3: class 0 on SP. -/
def execCoilSample (h : Header) (payload : List Byte) (s : State) : Host.Outcome State Fault Refusal :=
  finish (deliver .sp ⟨0, h, payload⟩ (useCoilSample h.node payload) s)

/-- R90: class 1 on SP. -/
def execInclineSample (h : Header) (payload : List Byte) (s : State) : Host.Outcome State Fault Refusal :=
  finish (deliver .sp ⟨1, h, payload⟩ (useInclineSample h.node payload) s)

/-- R89: class 2 on SP. -/
def execContactSample (h : Header) (payload : List Byte) (s : State) : Host.Outcome State Fault Refusal :=
  finish (deliver .sp ⟨2, h, payload⟩ (useContactSample h.node payload) s)

/-- R91: class 3 on SP. -/
def execPowerSample (h : Header) (payload : List Byte) (s : State) : Host.Outcome State Fault Refusal :=
  finish (deliver .sp ⟨3, h, payload⟩ (usePowerSample h.node payload) s)

/-- R92: class 4 on SP. -/
def execRainSample (h : Header) (payload : List Byte) (s : State) : Host.Outcome State Fault Refusal :=
  finish (deliver .sp ⟨4, h, payload⟩ (useRainSample h.node payload) s)

/-- R167: class 6 on DP. -/
def execDriveStatus (h : Header) (payload : List Byte) (s : State) : Host.Outcome State Fault Refusal :=
  finish (deliver .dp ⟨6, h, payload⟩ (useDriveStatus h.node payload) s)

end Sys2Proof.Machine
end

