-- ==== Sys2Proof/Machine/DriveCommands.lean ====
section
/-! DEFINITION. The meanings of the six controller drive commands, class 5 on CP (R142 to R154). -/

namespace Sys2Proof.Machine

/-- R46, R151: WHEEL-SPEED. -/
def execWheelSpeed (h : Header) (rest : List Byte) (s : State) : Host.Outcome State Fault Refusal :=
  finish (deliver .cp ⟨5, h, 1 :: rest⟩ (useDriveOrder h 1 (parseWheelSpeed rest)) s)

/-- R46, R151: BLADE-SPEED. -/
def execBladeSpeed (h : Header) (rest : List Byte) (s : State) : Host.Outcome State Fault Refusal :=
  finish (deliver .cp ⟨5, h, 2 :: rest⟩ (useDriveOrder h 2 (parseBladeSpeed rest)) s)

/-- R55, R152: BLADE-START. -/
def execBladeStart (h : Header) (rest : List Byte) (s : State) : Host.Outcome State Fault Refusal :=
  finish (deliver .cp ⟨5, h, 3 :: rest⟩ (useDriveOrder h 3 (parseBladeStart rest)) s)

/-- R55, R152: BLADE-STOP. -/
def execBladeStop (h : Header) (rest : List Byte) (s : State) : Host.Outcome State Fault Refusal :=
  finish (deliver .cp ⟨5, h, 4 :: rest⟩ (useDriveOrder h 4 (parseBladeStop rest)) s)

/-- R44, R46: DECK-HEIGHT. -/
def execDeckHeight (h : Header) (rest : List Byte) (s : State) : Host.Outcome State Fault Refusal :=
  finish (deliver .cp ⟨5, h, 5 :: rest⟩ (useDriveOrder h 5 (parseDeckHeight rest)) s)

/-- R152: BRAKE. -/
def execBrake (h : Header) (rest : List Byte) (s : State) : Host.Outcome State Fault Refusal :=
  finish (deliver .cp ⟨5, h, 6 :: rest⟩ (useDriveOrder h 6 (parseBrake rest)) s)

end Sys2Proof.Machine
end

