-- ==== Sys2Proof/Machine/Requests.lean ====
section
/-! DEFINITION. The meanings of the management requests, class 7 on CP for node 0x01 (R186, R195 to R210), the activity requests among them (R57
to R64). -/

namespace Sys2Proof.Machine

/-- R197: PING. -/
def execPing (h : Header) (rest : List Byte) (s : State) : Host.Outcome State Fault Refusal :=
  finish (bypass h (1 :: rest) (answerRequest 1 rest pingAnswer) s)

/-- R195, R197: a request code, or a READ-STATUS selector, that names nothing. -/
def execUndefinedRequest (h : Header) (payload : List Byte) (s : State) : Host.Outcome State Fault Refusal :=
  finish (bypass h payload (useRequest h payload) s)

/-- R198: READ-TABLE. -/
def execReadTable (h : Header) (rest : List Byte) (s : State) : Host.Outcome State Fault Refusal :=
  finish (bypass h (2 :: rest) (answerRequest 2 rest (readTableAnswer h)) s)

/-- R199 to R201: WRITE-TABLE. -/
def execWriteTable (h : Header) (rest : List Byte) (s : State) : Host.Outcome State Fault Refusal :=
  finish (bypass h (3 :: rest) (answerRequest 3 rest (writeTableAnswer h)) s)

/-- R74: READ-STATUS(STACK). -/
def execReadStatusStack (h : Header) (tag : Byte) (rest : List Byte) (s : State) : Host.Outcome State Fault Refusal :=
  finish (bypass h (4 :: tag :: 0 :: rest) (answerRequest 4 (tag :: rest) (statusAnswer stackData)) s)

/-- R49: READ-STATUS(ENVELOPE). -/
def execReadStatusEnvelope (h : Header) (tag : Byte) (rest : List Byte) (s : State) : Host.Outcome State Fault Refusal :=
  finish (bypass h (4 :: tag :: 1 :: rest) (answerRequest 4 (tag :: rest) (statusAnswer envelopeData)) s)

/-- R31: READ-STATUS(LOOPS). -/
def execReadStatusLoops (h : Header) (tag : Byte) (rest : List Byte) (s : State) : Host.Outcome State Fault Refusal :=
  finish (bypass h (4 :: tag :: 2 :: rest) (answerRequest 4 (tag :: rest) loopsAnswer) s)

/-- R31: READ-STATUS(CELLS). -/
def execReadStatusCells (h : Header) (tag : Byte) (rest : List Byte) (s : State) : Host.Outcome State Fault Refusal :=
  finish (bypass h (4 :: tag :: 3 :: rest) (answerRequest 4 (tag :: rest) cellsAnswer) s)

/-- R99: READ-STATUS(HAZARDS). -/
def execReadStatusHazards (h : Header) (tag : Byte) (rest : List Byte) (s : State) : Host.Outcome State Fault Refusal :=
  finish (bypass h (4 :: tag :: 4 :: rest) (answerRequest 4 (tag :: rest) (statusAnswer hazardsData)) s)

/-- R179: READ-STATUS(DRIVES). -/
def execReadStatusDrives (h : Header) (tag : Byte) (rest : List Byte) (s : State) : Host.Outcome State Fault Refusal :=
  finish (bypass h (4 :: tag :: 5 :: rest) (answerRequest 4 (tag :: rest) (statusAnswer drivesData)) s)

/-- R156: READ-STATUS(REFUSAL). -/
def execReadStatusRefusal (h : Header) (tag : Byte) (rest : List Byte) (s : State) : Host.Outcome State Fault Refusal :=
  finish (bypass h (4 :: tag :: 6 :: rest) (answerRequest 4 (tag :: rest) refusalAnswer) s)

/-- R197: READ-STATUS(IMAGE). -/
def execReadStatusImage (h : Header) (tag : Byte) (rest : List Byte) (s : State) : Host.Outcome State Fault Refusal :=
  finish (bypass h (4 :: tag :: 7 :: rest) (answerRequest 4 (tag :: rest) (statusAnswer imageData)) s)

/-- R58: START-MOW. -/
def execStartMow (h : Header) (rest : List Byte) (s : State) : Host.Outcome State Fault Refusal :=
  finish (bypass h (5 :: rest) (handleOrder h 5 rest (parsePlain .startMow)) s)

/-- R59: GO-HOME. -/
def execGoHome (h : Header) (rest : List Byte) (s : State) : Host.Outcome State Fault Refusal :=
  finish (bypass h (6 :: rest) (handleOrder h 6 rest parseGoHome) s)

/-- R60: LEAVE-DOCK. -/
def execLeaveDock (h : Header) (rest : List Byte) (s : State) : Host.Outcome State Fault Refusal :=
  finish (bypass h (7 :: rest) (handleOrder h 7 rest (parsePlain .leaveDock)) s)

/-- R61: PAUSE. -/
def execPause (h : Header) (rest : List Byte) (s : State) : Host.Outcome State Fault Refusal :=
  finish (bypass h (8 :: rest) (handleOrder h 8 rest (parsePlain .pause)) s)

/-- R62, R63: RESUME. -/
def execResume (h : Header) (rest : List Byte) (s : State) : Host.Outcome State Fault Refusal :=
  finish (bypass h (9 :: rest) (handleOrder h 9 rest (parsePlain .resume)) s)

/-- R64: RUN-MANOEUVRE. -/
def execRunManoeuvre (h : Header) (rest : List Byte) (s : State) : Host.Outcome State Fault Refusal :=
  finish (bypass h (10 :: rest) (handleOrder h 10 rest parseRunManoeuvre) s)

/-- R205: STORE-IMAGE. -/
def execStoreImage (h : Header) (rest : List Byte) (s : State) : Host.Outcome State Fault Refusal :=
  finish (bypass h (11 :: rest) (startOperation 11 h rest .store beginStore) s)

/-- R207: LOAD-IMAGE. -/
def execLoadImage (h : Header) (rest : List Byte) (s : State) : Host.Outcome State Fault Refusal :=
  finish (bypass h (12 :: rest) (startOperation 12 h rest .load id) s)

/-- R209, R210: RESTART. -/
def execRestart (h : Header) (rest : List Byte) (s : State) : Host.Outcome State Fault Refusal :=
  finish (bypass h (13 :: rest) (answerRequest 13 rest (restartAnswer h)) s)

end Sys2Proof.Machine
end

