-- ==== Sys2Proof/Machine/Internal.lean ====
section
/-! DEFINITION. The meanings of the device's own events: completions, timers, the executor's reports, the lines (R15, R69, R78, R86, R94, R109,
R111, R166, R168, R170, R188, R190, R205 to R208). -/

namespace Sys2Proof.Machine

/-- R205: the store has written its check word. -/
def execStoreComplete (s : State) : Host.Outcome State Fault Refusal :=
  finish (whenReady completeStore s)

/-- R206: the memory has stopped answering during a store. -/
def execStoreFailure (s : State) : Host.Outcome State Fault Refusal :=
  finish (whenReady failStore s)

/-- R208: a load has read and checked its image. -/
def execLoadComplete (answer : MemoryRead) (s : State) : Host.Outcome State Fault Refusal :=
  finish (whenReady (completeLoad answer) s)

/-- R15: the fade timer of a loop. -/
def execFadeTimerExpiry (loop : Fin 8) (s : State) : Host.Outcome State Fault Refusal :=
  finish (whenReady (expireFade loop) s)

/-- R86: the deadline of a sensor node. -/
def execNodeDeadlineExpiry (node : Fin 8) (s : State) : Host.Outcome State Fault Refusal :=
  finish (whenReady (expireDeadline node) s)

/-- R78: the hold timer of a source. -/
def execHoldTimerExpiry (source : Fin 16) (s : State) : Host.Outcome State Fault Refusal :=
  finish (whenReady (expireHold source) s)

/-- R94: the wire-lost delay. -/
def execWireLostDelayExpiry (s : State) : Host.Outcome State Fault Refusal :=
  finish (whenReady expireWireDelay s)

/-- R109, R111: the step timer. -/
def execStepTimerExpiry (s : State) : Host.Outcome State Fault Refusal :=
  finish (whenReady expireStep s)

/-- R69: the executor's completion report. -/
def execEscapeCompletionReport (s : State) : Host.Outcome State Fault Refusal :=
  finish (whenReady (deliverReport Report.isCompletion) s)

/-- R69: the executor's trap report. -/
def execTrapReport (s : State) : Host.Outcome State Fault Refusal :=
  finish (whenReady (deliverReport Report.isTrap) s)

/-- R114: the start of a STOP step. -/
def execStopStepStart (s : State) : Host.Outcome State Fault Refusal :=
  finish (whenReady (deliverReport Report.isStopStep) s)

/-- R166: the last byte of a DP frame is out. -/
def execSendComplete (s : State) : Host.Outcome State Fault Refusal :=
  finish (whenReady sendDone s)

/-- R168: the reply timer. A reply that is the very next command has reached the master together with the expiry (log entry 41). -/
def execReplyTimerExpiry (s : State) : Host.Outcome State Fault Refusal :=
  .next (markRaced (expiredWait s) (takeToken (whenReady expireReply s)))

/-- R170: the refresh timer. -/
def execRefreshTimerExpiry (s : State) : Host.Outcome State Fault Refusal :=
  finish (whenReady expireRefresh s)

/-- R188: the liveness timer. -/
def execLivenessTimerExpiry (s : State) : Host.Outcome State Fault Refusal :=
  finish (whenReady expireLiveness s)

/-- R190: the CP line is free. -/
def execCpLineFree (s : State) : Host.Outcome State Fault Refusal :=
  finish (if s.live then lineFree s else s)

end Sys2Proof.Machine
end

