-- ==== Sys2Proof/Machine/Dispatch.lean ====
section
/-! DEFINITION. One arm per command: the meaning of each. -/

namespace Sys2Proof.Machine

open Sys2Proof

def exec (i : Instr) (s : State) : Host.Outcome State Fault Refusal :=
  match i with
  | .powerOn => Sys2Proof.Machine.execPowerOn s
  | .resetLow => Sys2Proof.Machine.execResetLow s
  | .resetRise => Sys2Proof.Machine.execResetRise s
  | .imageCheckComplete answer => Sys2Proof.Machine.execImageCheckComplete answer s
  | .stopPress => Sys2Proof.Machine.execStopPress s
  | .stopRelease => Sys2Proof.Machine.execStopRelease s
  | .damagedFrame port run => Sys2Proof.Machine.execDamagedFrame port run s
  | .undefinedClassFrame port cls h payload => Sys2Proof.Machine.execUndefinedClassFrame port cls h payload s
  | .frameWithoutUser port cls h payload => Sys2Proof.Machine.execFrameWithoutUser port cls h payload s
  | .coilSample h payload => Sys2Proof.Machine.execCoilSample h payload s
  | .inclineSample h payload => Sys2Proof.Machine.execInclineSample h payload s
  | .contactSample h payload => Sys2Proof.Machine.execContactSample h payload s
  | .powerSample h payload => Sys2Proof.Machine.execPowerSample h payload s
  | .rainSample h payload => Sys2Proof.Machine.execRainSample h payload s
  | .driveStatus h payload => Sys2Proof.Machine.execDriveStatus h payload s
  | .wheelSpeed h rest => Sys2Proof.Machine.execWheelSpeed h rest s
  | .bladeSpeed h rest => Sys2Proof.Machine.execBladeSpeed h rest s
  | .bladeStart h rest => Sys2Proof.Machine.execBladeStart h rest s
  | .bladeStop h rest => Sys2Proof.Machine.execBladeStop h rest s
  | .deckHeight h rest => Sys2Proof.Machine.execDeckHeight h rest s
  | .brake h rest => Sys2Proof.Machine.execBrake h rest s
  | .ping h rest => Sys2Proof.Machine.execPing h rest s
  | .undefinedRequest h payload => Sys2Proof.Machine.execUndefinedRequest h payload s
  | .readTable h rest => Sys2Proof.Machine.execReadTable h rest s
  | .writeTable h rest => Sys2Proof.Machine.execWriteTable h rest s
  | .readStatusStack h tag rest => Sys2Proof.Machine.execReadStatusStack h tag rest s
  | .readStatusEnvelope h tag rest => Sys2Proof.Machine.execReadStatusEnvelope h tag rest s
  | .readStatusLoops h tag rest => Sys2Proof.Machine.execReadStatusLoops h tag rest s
  | .readStatusCells h tag rest => Sys2Proof.Machine.execReadStatusCells h tag rest s
  | .readStatusHazards h tag rest => Sys2Proof.Machine.execReadStatusHazards h tag rest s
  | .readStatusDrives h tag rest => Sys2Proof.Machine.execReadStatusDrives h tag rest s
  | .readStatusRefusal h tag rest => Sys2Proof.Machine.execReadStatusRefusal h tag rest s
  | .readStatusImage h tag rest => Sys2Proof.Machine.execReadStatusImage h tag rest s
  | .startMow h rest => Sys2Proof.Machine.execStartMow h rest s
  | .goHome h rest => Sys2Proof.Machine.execGoHome h rest s
  | .leaveDock h rest => Sys2Proof.Machine.execLeaveDock h rest s
  | .pause h rest => Sys2Proof.Machine.execPause h rest s
  | .resume h rest => Sys2Proof.Machine.execResume h rest s
  | .runManoeuvre h rest => Sys2Proof.Machine.execRunManoeuvre h rest s
  | .storeImage h rest => Sys2Proof.Machine.execStoreImage h rest s
  | .loadImage h rest => Sys2Proof.Machine.execLoadImage h rest s
  | .restart h rest => Sys2Proof.Machine.execRestart h rest s
  | .storeComplete => Sys2Proof.Machine.execStoreComplete s
  | .storeFailure => Sys2Proof.Machine.execStoreFailure s
  | .loadComplete answer => Sys2Proof.Machine.execLoadComplete answer s
  | .fadeTimerExpiry loop => Sys2Proof.Machine.execFadeTimerExpiry loop s
  | .nodeDeadlineExpiry node => Sys2Proof.Machine.execNodeDeadlineExpiry node s
  | .holdTimerExpiry source => Sys2Proof.Machine.execHoldTimerExpiry source s
  | .wireLostDelayExpiry => Sys2Proof.Machine.execWireLostDelayExpiry s
  | .stepTimerExpiry => Sys2Proof.Machine.execStepTimerExpiry s
  | .escapeCompletionReport => Sys2Proof.Machine.execEscapeCompletionReport s
  | .trapReport => Sys2Proof.Machine.execTrapReport s
  | .stopStepStart => Sys2Proof.Machine.execStopStepStart s
  | .sendComplete => Sys2Proof.Machine.execSendComplete s
  | .replyTimerExpiry => Sys2Proof.Machine.execReplyTimerExpiry s
  | .refreshTimerExpiry => Sys2Proof.Machine.execRefreshTimerExpiry s
  | .livenessTimerExpiry => Sys2Proof.Machine.execLivenessTimerExpiry s
  | .cpLineFree => Sys2Proof.Machine.execCpLineFree s
  | .powerLoss => Sys2Proof.Machine.execPowerLoss s

end Sys2Proof.Machine
end

