-- ==== Sys2Proof/Machine/Tick.lean ====
section
/-! DEFINITION. What happens with no command waiting: the device's own next event, else one millisecond passes (scope section 6, Time;
log entry 4). -/

namespace Sys2Proof.Machine

/-- A running timer one millisecond later. -/
def tickTimer (t : Option Nat) : Option Nat := t.map fun n => n - 1

/-- The hazard monitor's timers one millisecond later. -/
def tickHazards (h : HazardMonitor) : HazardMonitor :=
  { h with
    sources := .ofFn fun i : Fin 16 => { h.sources[i] with hold := tickTimer h.sources[i].hold }
    nodes := .ofFn fun n : Fin 8 => (h.nodes[n]).map fun r => { r with deadline := tickTimer r.deadline }
    wireDelay := tickTimer h.wireDelay }

/-- The decoder's fade timers one millisecond later. -/
def tickDecoder (d : Decoder) : Decoder :=
  { d with trackers := .ofFn fun l : Fin 8 => { d.trackers[l] with fade := tickTimer d.trackers[l].fade } }

/-- The drive port's timers one millisecond later. -/
def tickDrivePort (p : DrivePort) : DrivePort :=
  { p with replyTimer := tickTimer p.replyTimer, refreshTimer := tickTimer p.refreshTimer, raced := none }

/-- The running step's timer and elapsed time one millisecond later (R107, R118). -/
def tickStep (s : State) : State :=
  match s.running?, s.exe.timer with
  | some r, some t =>
    let left := t.left - 1
    (setEscape { r with elapsed := t.run - left } s).setExe { s.exe with timer := some ⟨t.run, left⟩ }
  | _, _ => s

/-- The operation in flight one millisecond later (R194). -/
def tickMgmt (m : Mgmt) : Mgmt := { m with op := m.op.map fun o => { o with elapsed := min 65535 (o.elapsed + 1) } }

/-- One millisecond passes: every running timer counts, nothing else changes. -/
def tick (s : State) : State :=
  let s1 := tickStep s
  ((((s1.setHaz (tickHazards s1.haz)).setDec (tickDecoder s1.dec)).setDp (tickDrivePort s1.dp)).setPort
    { s1.port with liveness := tickTimer s1.port.liveness }).setMgmt (tickMgmt s1.mgmt)

/-- A timer has run out and its expiry has not been taken. -/
def due (t : Option Nat) : Bool := t = some 0

/-- The row of a report. -/
def Report.event : Report → Instr
  | .completion _ => .escapeCompletionReport
  | .trap _ => .trapReport
  | .stopStepStart => .stopStepStart

/-- The CP line is free and something waits to be sent (R190). -/
def canSend (s : State) : Bool :=
  s.port.line = .free &&
    (!s.port.replies.isEmpty ||
      (decide (s.mgmt.startup = .ready) && (decide (s.haz.pending ≠ 0) || !s.port.mirrors.isEmpty)))

/-- The expiries that are due, in the fixed order of log entry 4. -/
def dueExpiries (s : State) : List Instr :=
  ((List.finRange 8).filter fun l => due s.dec.trackers[l].fade).map Instr.fadeTimerExpiry ++
  ((List.finRange 8).filter fun n => due ((s.haz.nodes[n]).bind NodeRec.deadline)).map Instr.nodeDeadlineExpiry ++
  ((List.finRange 16).filter fun i => due s.haz.sources[i].hold).map Instr.holdTimerExpiry ++
  (if due s.haz.wireDelay then [.wireLostDelayExpiry] else []) ++
  (if due (s.exe.timer.map StepTimer.left) then [.stepTimerExpiry] else []) ++
  (if due s.dp.replyTimer then [.replyTimerExpiry] else []) ++
  (if due s.dp.refreshTimer then [.refreshTimerExpiry] else []) ++
  (if due s.port.liveness then [.livenessTimerExpiry] else [])

/-- The device's own next event: a report on its way to the activity unit, then a frame for a free CP line, then a timer that has
run out. -/
def ownEvent (s : State) : Option Instr :=
  if s.live = false then none
  else match s.reports with
    | r :: _ => some r.event
    | [] => if canSend s then some .cpLineFree else (dueExpiries s).head?

end Sys2Proof.Machine
end

