-- ==== Sys2Proof/Machine/Step.lean ====
section
/-! DEFINITION. One step: the command at the front of the queue, or with an empty queue the device's own next event. -/

namespace Sys2Proof.Machine

open Sys2Proof

/-- With no command waiting the device takes its own next event, and without one a millisecond passes while it is powered and not held
(log entry 4). -/
def idle (s : State) : Host.Outcome State Fault Refusal :=
  match ownEvent s with
  | some c => exec c s
  | none => .next (if s.live then tick s else s)

/-- One step: the command at the front of the queue is taken with the queue's rest. -/
def step (s : State) : Host.Outcome State Fault Refusal :=
  match s.pending with
  | c :: rest => exec c (s.setPending rest)
  | [] => idle s

/-- The state with the command a word spells at the front of its queue; unchanged where the word spells none. -/
def State.withFetchWord (s : State) (nbits w : Nat) : State :=
  match decodeTableWord nbits w with
  | some c => s.setPending (c :: s.pending)
  | none => s

end Sys2Proof.Machine
end

