-- ==== Sys2Proof/WellFormed.lean ====
section
/-! DEFINITION. Which commands are what their rows say: an accepted frame has at most 24 payload bytes (R181), a frame
row carries the class, port and address the row is about. `exec` is total and does not ask for it: an ill-formed
frame row is taken as the frame it carries. -/

namespace Sys2Proof

/-- The classes 0 to 9 are defined (section 11.2). -/
def definedClass (cls : BitVec 4) : Bool := cls.toNat ≤ 9

/-- A request code of section 11.2 with a row of its own: codes 0x01 to 0x0D, where a READ-STATUS (0x04) also names
one of the eight selectors. -/
def knownRequest : List Byte → Bool
  | [] => false
  | code :: rest =>
    if code = 0x04#8 then
      match rest with
      | _ :: sel :: _ => decide (sel.toNat ≤ 7)
      | _ => false
    else decide (1 ≤ code.toNat ∧ code.toNat ≤ 13)

/-- The kind byte of a drive command names one of the six kinds (R143). -/
def knownKind : List Byte → Bool
  | [] => false
  | kind :: _ => decide (1 ≤ kind.toNat ∧ kind.toNat ≤ 6)

/-- A frame of a defined class with no row but FRAME_WITHOUT_USER on its port (R182): no user there, or a
DRIVE-COMMAND on CP whose kind has no row, or a MGMT-REQUEST for another node. -/
def hasNoRow (port : Port) (cls : BitVec 4) (h : Header) (payload : List Byte) : Bool :=
  definedClass cls &&
  match port with
  | .cp => if cls = 5#4 then !knownKind payload else if cls = 7#4 then h.node ≠ 0x01#8 else true
  | .sp => decide (5 ≤ cls.toNat)
  | .dp => cls ≠ 6#4

/-- The well-formed commands. -/
def Instr.wellFormed : Instr → Bool
  | .damagedFrame _ run => (Machine.checkRun (Machine.rxRun run)).isNone
  | .undefinedClassFrame _ cls _ payload => !definedClass cls && decide (payload.length ≤ 24)
  | .frameWithoutUser port cls h payload => hasNoRow port cls h payload && decide (payload.length ≤ 24)
  | .coilSample _ p | .inclineSample _ p | .contactSample _ p | .powerSample _ p | .rainSample _ p
  | .driveStatus _ p => decide (p.length ≤ 24)
  | .wheelSpeed _ r | .bladeSpeed _ r | .bladeStart _ r | .bladeStop _ r | .deckHeight _ r | .brake _ r =>
    decide (r.length ≤ 23)
  | .undefinedRequest h p => decide (h.node = 0x01#8 ∧ p.length ≤ 24) && !knownRequest p
  | .ping h r | .readTable h r | .writeTable h r | .startMow h r | .goHome h r | .leaveDock h r | .pause h r
  | .resume h r | .runManoeuvre h r | .storeImage h r | .loadImage h r | .restart h r =>
    decide (h.node = 0x01#8 ∧ r.length ≤ 23)
  | .readStatusStack h _ r | .readStatusEnvelope h _ r | .readStatusLoops h _ r | .readStatusCells h _ r
  | .readStatusHazards h _ r | .readStatusDrives h _ r | .readStatusRefusal h _ r | .readStatusImage h _ r =>
    decide (h.node = 0x01#8 ∧ r.length ≤ 21)
  | .imageCheckComplete _ | .loadComplete _ | .fadeTimerExpiry _ | .nodeDeadlineExpiry _ | .holdTimerExpiry _
  | .powerOn | .resetLow | .resetRise | .stopPress | .stopRelease | .storeComplete | .storeFailure
  | .wireLostDelayExpiry | .stepTimerExpiry | .escapeCompletionReport | .trapReport | .stopStepStart
  | .sendComplete | .replyTimerExpiry | .refreshTimerExpiry | .livenessTimerExpiry | .cpLineFree
  | .powerLoss => true

/-- The frame a command stands for, with the port it is accepted on; none for an event that is no accepted frame (section 11.2). -/
def Instr.frame? : Instr → Option (Port × Machine.Frame)
  | .undefinedClassFrame port cls h p | .frameWithoutUser port cls h p => some (port, ⟨cls, h, p⟩)
  | .coilSample h p => some (.sp, ⟨0, h, p⟩)
  | .inclineSample h p => some (.sp, ⟨1, h, p⟩)
  | .contactSample h p => some (.sp, ⟨2, h, p⟩)
  | .powerSample h p => some (.sp, ⟨3, h, p⟩)
  | .rainSample h p => some (.sp, ⟨4, h, p⟩)
  | .driveStatus h p => some (.dp, ⟨6, h, p⟩)
  | .wheelSpeed h r => some (.cp, ⟨5, h, 1 :: r⟩)
  | .bladeSpeed h r => some (.cp, ⟨5, h, 2 :: r⟩)
  | .bladeStart h r => some (.cp, ⟨5, h, 3 :: r⟩)
  | .bladeStop h r => some (.cp, ⟨5, h, 4 :: r⟩)
  | .deckHeight h r => some (.cp, ⟨5, h, 5 :: r⟩)
  | .brake h r => some (.cp, ⟨5, h, 6 :: r⟩)
  | .undefinedRequest h p => some (.cp, ⟨7, h, p⟩)
  | .ping h r => some (.cp, ⟨7, h, 1 :: r⟩)
  | .readTable h r => some (.cp, ⟨7, h, 2 :: r⟩)
  | .writeTable h r => some (.cp, ⟨7, h, 3 :: r⟩)
  | .readStatusStack h tag r => some (.cp, ⟨7, h, 4 :: tag :: 0 :: r⟩)
  | .readStatusEnvelope h tag r => some (.cp, ⟨7, h, 4 :: tag :: 1 :: r⟩)
  | .readStatusLoops h tag r => some (.cp, ⟨7, h, 4 :: tag :: 2 :: r⟩)
  | .readStatusCells h tag r => some (.cp, ⟨7, h, 4 :: tag :: 3 :: r⟩)
  | .readStatusHazards h tag r => some (.cp, ⟨7, h, 4 :: tag :: 4 :: r⟩)
  | .readStatusDrives h tag r => some (.cp, ⟨7, h, 4 :: tag :: 5 :: r⟩)
  | .readStatusRefusal h tag r => some (.cp, ⟨7, h, 4 :: tag :: 6 :: r⟩)
  | .readStatusImage h tag r => some (.cp, ⟨7, h, 4 :: tag :: 7 :: r⟩)
  | .startMow h r => some (.cp, ⟨7, h, 5 :: r⟩)
  | .goHome h r => some (.cp, ⟨7, h, 6 :: r⟩)
  | .leaveDock h r => some (.cp, ⟨7, h, 7 :: r⟩)
  | .pause h r => some (.cp, ⟨7, h, 8 :: r⟩)
  | .resume h r => some (.cp, ⟨7, h, 9 :: r⟩)
  | .runManoeuvre h r => some (.cp, ⟨7, h, 10 :: r⟩)
  | .storeImage h r => some (.cp, ⟨7, h, 11 :: r⟩)
  | .loadImage h r => some (.cp, ⟨7, h, 12 :: r⟩)
  | .restart h r => some (.cp, ⟨7, h, 13 :: r⟩)
  | .damagedFrame _ _ | .powerOn | .resetLow | .resetRise | .imageCheckComplete _ | .stopPress | .stopRelease
  | .storeComplete | .storeFailure | .loadComplete _ | .fadeTimerExpiry _ | .nodeDeadlineExpiry _ | .holdTimerExpiry _
  | .wireLostDelayExpiry | .stepTimerExpiry | .escapeCompletionReport | .trapReport | .stopStepStart | .sendComplete
  | .replyTimerExpiry | .refreshTimerExpiry | .livenessTimerExpiry | .cpLineFree | .powerLoss => none

end Sys2Proof
end

