-- ==== Sys2Proof/Safety.lean ====
section
/-! DEFINITION. What counts as a sound state of the device: the promises the manual makes about every state, and the words the statements
use for a frame that reaches its user. -/

namespace Sys2Proof.Machine

/-! ### Promises about every state -/

/-- R163, R147, R191, R189: the drive output queue holds no token twice, the refusal count stays at 255 or below, at most eight mirrors
wait and at most four reply places are in use. -/
def StoresBounded (s : State) : Prop :=
  s.dp.queue.Nodup ∧ (∀ r ∈ s.gate.refusal, r.further ≤ 255) ∧ s.port.mirrors.length ≤ 8 ∧ placesUsed s ≤ 4

/-- R33: `cap` is the cap of value `v` in band group `g`: that of the first of bands 0, 1 and 2 whose bound the value is below, else of band 3. -/
def Banded (t : Tables) (g : Fin 3) (v cap : Nat) : Prop :=
  ∃ j : Fin 4, cap = (t.band g j).cap ∧ (j = 3 ∨ v < (t.band g j).bound) ∧ ∀ i : Fin 4, i < j → (t.band g i).bound ≤ v

/-- R35 to R38: the proximity, slope, load and hazard caps of `c` are those of N, pitch and roll, the load percents and the source states of `s`. -/
def CapsFollow (s : State) (c : Caps) : Prop :=
  let t := s.tables
  let slow := fun (i : Fin 16) => t.hazard[i].response = .slow ∧ (s.srcState i = .raised ∨ s.srcState i = .held)
  (s.env.n = none → c.proximity = (t.band 0 0).cap) ∧
  (∀ n, s.env.n = some n → (n < 0 → c.proximity = (t.band 0 0).cap) ∧ (0 ≤ n → Banded t 0 n.toNat c.proximity)) ∧
  (s.haz.nodes[(4 : Fin 8)].map NodeRec.state = some .fresh → Banded t 1 (max s.env.pitch.natAbs s.env.roll.natAbs) c.slope) ∧
  (s.haz.nodes[(4 : Fin 8)].map NodeRec.state ≠ some .fresh → c.slope = (t.band 1 3).cap) ∧
  (s.act.bladeEnable = false → c.load = 1000) ∧
  (∀ v, s.act.bladeEnable = true → (∀ b : Blade, t.mapped (.blade b) = true → s.env.percents.get b ≤ v) →
    (∃ b : Blade, t.mapped (.blade b) = true ∧ s.env.percents.get b = v) ∨ (v = 0 ∧ t.anyBlade = false) → Banded t 2 v c.load) ∧
  (∀ i, slow i → c.hazard ≤ t.hazard[i].slowCap) ∧ c.hazard ≤ 1000 ∧
  (c.hazard = 1000 ∨ ∃ i, slow i ∧ c.hazard = t.hazard[i].slowCap)

/-- R42 to R44: the held values of `s` are its requested values under K, the blade maxima, blade-enable and the range of the height. -/
def HeldFollows (s : State) : Prop :=
  (s.env.held.left, s.env.held.right) = scaleWheels s.env.req.left s.env.req.right s.env.k ∧
  (∀ b : Blade, s.env.held.blades.get b =
    if s.act.bladeEnable then min (s.env.req.blades.get b) (s.tables.driveOf (.blade b)).maximum else 0) ∧
  s.env.held.deck = if s.env.req.deck = 0 then 0 else max 20 (min 100 s.env.req.deck)

/-- R40, R42, R43: K is the smallest source cap, no held wheel speed exceeds it, and no blade is held at a speed while blade-enable is
clear. R35 to R38, R40, R45: in READY every change of an input has ended with its derivation, so that four source caps are those of the inputs as
they stand and the held values those of the requests. (The activity cap is that of the top handed over last, R39.) -/
def EnvelopeSound (s : State) : Prop :=
  s.env.k = s.env.caps.effective ∧ s.env.held.left.natAbs ≤ s.env.k ∧ s.env.held.right.natAbs ≤ s.env.k ∧
    (s.act.bladeEnable = false → s.env.held.blades = ⟨0, 0, 0⟩) ∧ (s.isReady = true → CapsFollow s s.env.caps ∧ HeldFollows s)

/-- R45: `x` is the token of a held value that differs between `a` and `b`; a held height of 0 has none (R44). -/
def HeldChanged (x : Token) (a b : DriveValues) : Prop :=
  match x with
  | .wheelSpeed w => b.wheel w ≠ a.wheel w
  | .bladeSpeed d => b.blades.get d ≠ a.blades.get d
  | .height => b.deck ≠ a.deck ∧ b.deck ≠ 0
  | .wheelBrake _ | .bladeStart _ | .bladeStop _ => False

/-- R45: each mapped drive whose held value differs between `s` and `u` has its token in the drive output queue of `u`. -/
def ChangedQueued (s u : State) : Prop :=
  ∀ x : Token, HeldChanged x s.env.held u.env.held → u.tables.mapped x.drive = true → x ∈ u.dp.queue

/-- R76, R77: a source is HELD exactly while its hold timer runs; a RAISED source has its condition, a HELD one has not. -/
def SourceSound (r : SrcRec) : Prop :=
  (r.state = .held ↔ r.hold.isSome) ∧ (r.state = .raised → r.cond = true) ∧ (r.state = .held → r.cond = false)

/-- Every source record is sound, a disabled source is QUIET, an enabled one whose condition is true is RAISED, and every HALT record has a cause
(R51, R76, R77, R82). -/
def RecordsSound (s : State) : Prop :=
  (∀ i : Fin 16, SourceSound s.haz.sources[i] ∧ (s.tables.hazard[i].enabled = false → s.srcState i = .quiet) ∧
    (s.tables.hazard[i].enabled = true → s.haz.sources[i].cond = true → s.srcState i = .raised)) ∧
    ∀ r ∈ s.act.stack.halt, r.causes ≠ CauseSet.none

/-- R81: the fixed sources STOP, LIFT, TILT and TRAPPED are enabled and answer with HALT. -/
def FixedSources (t : Tables) : Prop :=
  ∀ i ∈ [srcStop, srcLift, srcTilt, srcTrapped], t.hazard[i].enabled = true ∧ t.hazard[i].response = .halt

/-- R140: the four fixed cells of the gate table. -/
def FixedCells (t : Tables) : Prop :=
  ∀ k ∈ [Kind.follow, .docked, .escape, .halt], t.cell 0 k = ⟨true, 3, .refuse⟩

/-- R55: while blade-enable is set, the stack holds MOW and no HALT, its top is MOW or ESCAPE (so that nothing stands between the two), and
STOP, LIFT and TILT are QUIET. -/
def BladesGuarded (s : State) : Prop :=
  s.act.bladeEnable = true →
    s.act.stack.mow.isSome ∧ s.act.stack.halt = none ∧ s.act.stack.home = none ∧ (s.top = .mow ∨ s.top = .escape) ∧
      s.srcState srcStop = .quiet ∧ s.srcState srcLift = .quiet ∧ s.srcState srcTilt = .quiet

/-- The fixed entries of the tables (R81, R140) and the blade rule (R55) with what it rests on. -/
def BladesSafe (s : State) : Prop := FixedSources s.tables ∧ FixedCells s.tables ∧ RecordsSound s ∧ BladesGuarded s

/-! ### A frame that reaches its user -/

/-- A frame of a class below the bypass is handed to its user: the device is READY and the first intake entry that matches says USE or USE-MIRROR
(R182, R185, R186). -/
def Taken (p : Port) (cls : BitVec 4) (h : Header) (s : State) : Prop :=
  s.isReady = true ∧
    (s.tables.intakeAction p (cls ++ h.node) = some .use ∨ s.tables.intakeAction p (cls ++ h.node) = some .useMirror)

/-- A frame on CP that is handed to its user. -/
def CpTaken (cls : BitVec 4) (h : Header) (s : State) : Prop := Taken .cp cls h s

/-- A frame on SP that is handed to its user. -/
def SpTaken (cls : BitVec 4) (h : Header) (s : State) : Prop := Taken .sp cls h s

/-- The port interface after a frame on SP or DP has gone through the intake table to its user: with USE-MIRROR a copy has joined the mirror queue
of eight, the oldest leaving a full one (R185, R191). -/
def mirrored (p : Port) (cls : BitVec 4) (h : Header) (payload : List Byte) (s : State) : PortState :=
  if s.tables.intakeAction p (cls ++ h.node) = some .useMirror then
    { s.port with
      mirrors := (if s.port.mirrors.length < 8 then s.port.mirrors else s.port.mirrors.drop 1) ++ [frameBytes cls h payload] }
  else s.port

/-- R85, R87: the state in which the contents of a sample of node `n` are used: the node is FRESH, its deadline runs for three periods, and at its
return from SILENT the condition of SENSOR-SILENT has been formed anew from the other nodes. -/
def arrived (n : Fin 8) (period : Nat) (s : State) : State :=
  let w := s.setHaz { s.haz with nodes := s.haz.nodes.set n (some ⟨.fresh, some (3 * period)⟩) }
  if nodeSilent s.haz n = true then setCondition srcSensorSilent (decide (∃ m : Fin 8, nodeSilent w.haz m = true)) w else w

/-- A management request of a READY device that finds a free reply place (R186). -/
def Requested (h : Header) (s : State) : Prop := s.isReady = true ∧ h.node = 0x01#8 ∧ placesUsed s < 4

/-- The cell of an order passes it on to the kind conditions: present, rank admitted, TAKE (R142, R144, R146). -/
def CellTakes (row : Fin 12) (h : Header) (s : State) : Prop :=
  (s.tables.cell row s.top).present = true ∧ effectiveRank s.tables h.rank ≤ (s.tables.cell row s.top).rankLimit ∧
    (s.tables.cell row s.top).disp = .take

/-- R93, R174 to R176: between `s` and `u` the four drive conditions have been formed: each flag of `u` says what the node records and the mapping
of `u` give, and the condition of its source is the flag where the flag has changed, else as it was. -/
def DriveConditionsFormed (s u : State) : Prop :=
  (u.dp.stallLeft = true ↔ u.tables.mapped (.wheel .left) = true ∧ (u.dp.recOf (.wheel .left)).stallRun = 4) ∧
  (u.dp.stallRight = true ↔ u.tables.mapped (.wheel .right) = true ∧ (u.dp.recOf (.wheel .right)).stallRun = 4) ∧
  (u.dp.overload = true ↔ ∃ b, u.tables.mapped (.blade b) = true ∧ (u.dp.recOf (.blade b)).overRun = 4) ∧
  (u.dp.fault = true ↔ ∃ d, u.tables.mapped d = true ∧ ((u.dp.recOf d).state = .unresponsive ∨ (u.dp.recOf d).state = .faulted)) ∧
  ∀ x ∈ [(srcStallLeft, s.dp.stallLeft, u.dp.stallLeft), (srcStallRight, s.dp.stallRight, u.dp.stallRight),
      (srcOverload, s.dp.overload, u.dp.overload), (srcDriveFault, s.dp.fault, u.dp.fault)],
    u.haz.sources[x.1].cond = if x.2.1 = x.2.2 then s.haz.sources[x.1].cond else x.2.2

/-- Nothing waits for a top change: no pending return, no owed response, no deferred order (R71 to R73). -/
def NothingWaits (s : State) : Prop :=
  s.act.pendingReturn = false ∧ (∀ i : Fin 16, s.haz.sources[i].owed = false) ∧ s.gate.deferred = none

/-- The tables, the decoder, the management unit, the pins, the free byte index and the queue stand. -/
def SameConfig (s t : State) : Prop :=
  t.tables = s.tables ∧ t.dec = s.dec ∧ t.mgmt = s.mgmt ∧ t.pins = s.pins ∧ t.fresh = s.fresh ∧ t.pending = s.pending

/-- The reply queue grew by one reply at its end, the rest of the port interface but the liveness timer stands. -/
def Replied (s t : State) (r : Reply) : Prop :=
  t.port = { s.port with replies := s.port.replies ++ [r], liveness := some s.tables.timing.liveness }

/-! ### Items as bytes -/

/-- A number in `n` bytes, least significant first, in two's complement when negative (section 6, Byte order). -/
def bytesOf : Nat → Int → List Byte
  | 0, _ => []
  | n + 1, x => BitVec.ofInt 8 x :: bytesOf n (x / 256)

/-- The code byte of a value: its place in the row of the code tables, whose values stand in the order of their codes (sections 11.2 and 11.3). -/
def codeOf {α : Type} [DecidableEq α] (row : List α) (x : α) : List Byte := bytesOf 1 (row.idxOf x)

/-- The reply codes and refusal reasons, STALE a reason alone (section 11.2). -/
def codeRow : List Code :=
  [.done, .clamped, .deferred, .notReady, .busy, .state, .hazard, .rank, .absent, .undefined, .range, .active, .gated, .node, .interlock, .stale]

/-- The tokens in the order of R163 (section 11.3). -/
def tokenRow : List Token :=
  [.wheelSpeed .left, .wheelBrake .left, .wheelSpeed .right, .wheelBrake .right, .bladeSpeed .bladeA, .bladeStart .bladeA, .bladeStop .bladeA,
    .bladeSpeed .bladeB, .bladeStart .bladeB, .bladeStop .bladeB, .bladeSpeed .bladeC, .bladeStart .bladeC, .bladeStop .bladeC, .height]

/-- A flag or mark in one byte (section 11.3). -/
def flagOf (b : Bool) : List Byte := bytesOf 1 b.toNat

/-- An item of one byte, 0xFF for none (section 11.3). -/
def byteOrNone (o : Option Nat) : List Byte := bytesOf 1 (o.getD 255)

/-- An item of two bytes, 0x8000 for none (section 11.3). -/
def twoOrNone (o : Option Int) : List Byte := bytesOf 2 (o.getD (-32768))

/-- The remaining time of a timer in two bytes, 0 when it is stopped (R31, R98, R179; elsewhere log entry 10). -/
def timeLeft (t : Option Nat) : List Byte := bytesOf 2 (t.getD 0)

/-! ### Halts, escapes and steps -/

/-- R106, R116: what the executor holds once a HALT stands over the stack `k`: the escape it held is FROZEN with its timer stopped when it is the
one directly below, and is dropped otherwise. -/
def executorAtHalt (k : Stack) (x : Executor) : Executor :=
  match k.esc, x.held with
  | some r, some h => { x with held := if h.entry = r.entry then some ⟨h.entry, .frozen⟩ else none, timer := none }
  | some _, none => x
  | none, _ => { x with held := none, timer := none }

/-- R56, R65: the activity unit after a HALT with one cause has been pushed over the stack `k`. -/
def haltedOver (k : Stack) (c : HaltCause) (a : Activity) : Activity :=
  { a with
    stack := { k with halt := some ⟨a.epoch + 1, CauseSet.none.add c⟩ }
    epoch := a.epoch + 1, bladeEnable := false, shadow := a.bladeEnable }

/-- R107: how long the step timer runs for a step. -/
def stepTime (t : Tables) (n : EscStep) : Nat := if n.kind = .time then n.amount else t.home.stepLimit

/-- R107: step `i` of the escape `r` starts between `s` and `u`, with the chain count given. -/
def StepStarts (r : EscRec) (i : Fin 8) (chain : Nat) (s u : State) : Prop :=
  let n := s.tables.step r.man i
  u.act.stack.esc = some { r with step := i, progress := 0, elapsed := 0, chain := chain } ∧
    u.exe.held = s.exe.held ∧ u.exe.timer = some ⟨stepTime s.tables n, stepTime s.tables n⟩ ∧
    (n.kind = .turn → u.exe.baseline = none) ∧ u.env.req = { s.env.req with left := n.left, right := n.right } ∧
    u.reports = s.reports ++ (if n.stop then [.stopStepStart] else [])

/-- R112, R113: the escape goes to ENDING between `s` and `u` with its record at `r` and the report `m`. -/
def EscapeEnds (r : EscRec) (m : Report) (s u : State) : Prop :=
  u.act.stack.esc = some r ∧ u.exe.timer = none ∧ u.exe.held = some ⟨r.entry, .ending⟩ ∧ u.env.req = s.env.req ∧
    u.reports = s.reports ++ [m]

/-- R106, R107: between `s` and `u` an ESCAPE record has come on top and the executor has taken it up at step 0. -/
def EscapeTakenUp (c : EscCause) (m : Fin 8) (chain : Nat) (s u : State) : Prop :=
  let st := s.tables.step m 0
  u.act.stack.esc = some ⟨c, s.act.epoch + 1, m, 0, 0, 0, chain⟩ ∧ u.act.stack.mow = s.act.stack.mow ∧
    u.act.stack.halt = none ∧ u.act.epoch = s.act.epoch + 1 ∧ u.act.bladeEnable = s.act.bladeEnable ∧
    u.exe.held = some ⟨s.act.epoch + 1, .running⟩ ∧ u.exe.timer = some ⟨stepTime s.tables st, stepTime s.tables st⟩ ∧
    (st.kind = .turn → u.exe.baseline = none) ∧ u.env.req = { s.env.req with left := st.left, right := st.right } ∧
    u.reports = s.reports ++ (if st.stop then [.stopStepStart] else []) ∧ SameConfig s u ∧ u.gate = s.gate

/-! ### Start-up, replies, tables -/

/-- Every block but the tables at its power-on value, LOADING, no operation in flight and no press latched (R3, R10, R19, R32, R193, R202). -/
def AtStart (t : State) : Prop :=
  t.mgmt.startup = .loading ∧ t.mgmt.op = none ∧ t.dec = freshDecoder t.tables ∧ t.act = freshActivity ∧ t.haz = quietMonitor ∧
    t.exe = freshExecutor ∧ t.home = freshHoming ∧ t.gate = freshGate ∧ t.dp = quietDrivePort ∧ t.port = freshPorts ∧ t.reports = [] ∧
    t.env = blankEnvelope ∧ t.pins.stopLatch = false

/-- R94, R100: the wire-lost delay of these tables is 0 and source 9 is enabled, so that WIRE-LOST fires at READY. -/
def wireFires (t : Tables) : Bool := t.sensor.wireDelay = 0 && t.hazard[srcWireLost].enabled

/-- R65, R66: WIRE-LOST fires at READY and its response over IDLE is a HALT, an ESCAPE manoeuvre of 0 steps being one. -/
def wireHalts (t : Tables) : Bool :=
  let h := t.hazard[srcWireLost]
  wireFires t && (h.response = .halt || (h.response = .escape && t.counts[h.manoeuvre] = 0))

/-- R75, R65, R204: the activity unit at READY: [IDLE] at epoch 0, or HALT over it at epoch 1 when WIRE-LOST halts or STOP was pressed. -/
def readyActivity (t : Tables) (pressed : Bool) : Activity :=
  let causes : CauseSet := ⟨(if wireHalts t then BitVec.twoPow 16 9 else 0) ||| (if pressed then BitVec.twoPow 16 0 else 0), false, false⟩
  if wireHalts t || pressed then { freshActivity with stack := { idleStack with halt := some ⟨1, causes⟩ }, epoch := 1 }
  else freshActivity

/-- R76, R77, R88, R94: the source records at READY: STOP is RAISED while its input is low and released again when the press was only latched,
WIRE-LOST is true with a delay of 0, every other source is QUIET. -/
def readySource (t : Tables) (low pressed : Bool) (i : Fin 16) : SrcRec :=
  let hold := t.hazard[srcStop].hold
  if i = srcStop ∧ pressed then
    if low then { freshSource with cond := true, state := .raised, raisedSince := true }
    else if hold = 0 then { freshSource with raisedSince := true }
    else { freshSource with state := .held, hold := some hold, raisedSince := true }
  else if i = srcWireLost ∧ t.sensor.wireDelay = 0 then
    if t.hazard[srcWireLost].enabled then { freshSource with cond := true, state := .raised, raisedSince := true }
    else { freshSource with cond := true }
  else freshSource

/-- R33 to R41, R38, R204: the source caps at READY. -/
def readyCaps (t : Tables) (pressed : Bool) : Caps :=
  { proximity := (t.band 0 0).cap, slope := (t.band 1 3).cap, load := 1000
    hazard := if wireFires t ∧ t.hazard[srcWireLost].response = .slow then min 1000 t.hazard[srcWireLost].slowCap else 1000
    activity := if wireHalts t || pressed then 0 else t.home.capIdle }

/-- R178, R164: the start tokens of the mapped drives wait in the queue, the first of them going out. -/
def StartTokensSent (t : State) : Prop :=
  let start : List Token := [.wheelBrake .left, .wheelBrake .right, .bladeStop .bladeA, .bladeStop .bladeB, .bladeStop .bladeC]
  match start.filter fun x => t.tables.mapped x.drive with
  | [] => t.dp.queue = [] ∧ t.dp.cycle = .idle
  | x :: rest => t.dp.queue = rest ∧ ∃ f, t.dp.cycle = .sending f ∧ f.token = x ∧ f.address = (t.tables.driveOf x.drive).node ∧
      f.frame = frameBytes 5 (ownHeader f.address t.act.epoch) (tokenPayload noValues x)

/-- R204, R32, R33 to R41, R75, R86, R88, R94, R100, R105, R121, R160, R178: every block but the ports and the management unit as READY leaves it
with the tables in place: `low` says whether STOP is low, `pressed` whether it is low or a press was latched. -/
def AtReady (low pressed : Bool) (t : State) : Prop :=
  t.dec = freshDecoder t.tables ∧ t.act = readyActivity t.tables pressed ∧ t.exe = freshExecutor ∧ t.home = freshHoming ∧
    t.gate = freshGate ∧ t.reports = [] ∧ t.pins.stopLatch = false ∧
    t.env = ⟨none, 0, 0, ⟨0, 0, 0⟩, readyCaps t.tables pressed, (readyCaps t.tables pressed).effective, noValues, noValues⟩ ∧
    (∀ i : Fin 16, t.haz.sources[i] = readySource t.tables low pressed i) ∧
    t.haz.pending = BitVec.twoPow 20 16 ||| (if pressed then BitVec.twoPow 20 0 else 0) |||
      (if wireFires t.tables then BitVec.twoPow 20 9 else 0) ∧
    (∀ n : Fin 8, t.haz.nodes[n] = (t.tables.nodePeriod n).map fun p => ⟨.pending, some (3 * p)⟩) ∧
    t.haz.wireDelay = (if t.tables.sensor.wireDelay = 0 then none else some t.tables.sensor.wireDelay) ∧ t.haz.kept = noSamples ∧
    (∀ d : Drive, t.dp.recOf d = freshDriveRec) ∧ t.dp.refreshTimer = some t.tables.timing.refresh ∧ t.dp.replyTimer = none ∧
    t.dp.stallLeft = false ∧ t.dp.stallRight = false ∧ t.dp.overload = false ∧ t.dp.fault = false ∧ StartTokensSent t

/-- The reply queue of an accepted request with one reply more, built under epoch `e` (R189, R192, R211). -/
def repliesWith (s : State) (request tag : Byte) (a : Answer) (e : Byte) : List Reply :=
  s.port.replies ++ [⟨request, tag, a.code, a.offset, e, 0, cutData a.data.length a.data⟩]

/-- The tables are such as a write or an image leaves them: each entry stands as its own checks leave it and fits its bytes, and every check
across entries passes (R200, R203). -/
def TablesValid (t : Tables) : Prop :=
  t.consistent = true ∧ ∀ x ∈ allEntries,
    x.1.checkEntry x.2 1 (t.rawEntry x.1 x.2) = .ok (t.rawEntry x.1 x.2) ∧
      decodeRow (x.1.fields x.2 1) (t.entryBytes x.1 x.2) = t.rawEntry x.1 x.2

/-- R200, R203, R103: the tables are valid, and the chain count of a standing ESCAPE is below the chain limit, so that a raised limit stays in its
range. -/
def TablesSound (s : State) : Prop :=
  TablesValid s.tables ∧ ∀ r ∈ s.act.stack.esc, r.chain + 1 ≤ s.tables.home.chainLimit

/-- `n` lies in the range from `lo` to `hi`. -/
def Between (lo hi n : Nat) : Prop := lo ≤ n ∧ n ≤ hi

/-- R158: the node addresses of the present coils, the present sensor nodes and the mapped drives. -/
def presentAddresses (t : Tables) : List Byte :=
  (t.coil.toList.filter CoilEntry.present).map CoilEntry.node ++
    ([t.sensor.incline, t.sensor.contact, t.sensor.power, t.sensor.rain].filter SensorNode.present).map SensorNode.node ++
    (t.drive.toList.filter DriveEntry.present).map DriveEntry.node

/-- R2, R84, R158, R184: every intake base lies within its mask; the present addresses lie in 0x02 to 0xFE and are pairwise distinct. R1, R84: the
periods, the gains and the thresholds of the sensor table lie in their ranges. -/
def NodesInRange (t : Tables) : Prop :=
  (∀ i : Fin 16, t.intake[i].base &&& t.intake[i].mask = t.intake[i].base) ∧
  (∀ c : Fin 4, Between 1 255 t.coil[c].gain ∧ Between 5 500 t.coil[c].period) ∧
  (let x := t.sensor;
    (∀ n ∈ [x.incline, x.contact, x.power, x.rain], Between 5 500 n.period) ∧ Between 21 900 x.tilt ∧ Between 21 255 x.rainLevel ∧
      x.returnLevel ≤ 100 ∧ Between 100 1000 x.overload ∧ x.wireDelay ≤ 10000) ∧
  (presentAddresses t).Nodup ∧ ∀ a ∈ presentAddresses t, Between 0x02 0xFE a.toNat

/-- R5, R6, R22, R33, R34: the loop table in its ranges with Tlose below Tlock, F strictly decreasing and D never falling over the breakpoints, and
in each band group the bounds of bands 0 to 2 strictly increasing, that of band 3 at the top. -/
def WireAndBandsInRange (t : Tables) : Prop :=
  (∀ l : Fin 8, let x := t.loop[l]
    x.tlock ≤ 2048 ∧ (x.tlose < x.tlock ∨ (x.tlose = 0 ∧ x.tlock = 0)) ∧ Between 1 8 x.lockCount ∧ Between 1 8 x.loseCount ∧
      x.slip ≤ 255 ∧ Between 1 16 x.alpha ∧ Between 100 5000 x.fadeTime) ∧
  (∀ j : Fin 8, (t.point j.val).f ≤ 4095 ∧ (t.point j.val).d ≤ 1000) ∧
  (∀ j : Fin 7, (t.point (j.val + 1)).f < (t.point j.val).f ∧ (t.point j.val).d ≤ (t.point (j.val + 1)).d) ∧
  ∀ g : Fin 3, let top := if g = 1 then 900 else 1000
    (∀ j : Fin 4, (t.band g j).cap ≤ 1000) ∧ (t.band g 0).bound < (t.band g 1).bound ∧ (t.band g 1).bound < (t.band g 2).bound ∧
      (t.band g 2).bound ≤ top ∧ (t.band g 3).bound = top

/-- R138 to R140, R157, R80, R81, R101, R102: the gate, drive, hazard and manoeuvre tables in their ranges, with their fixed cells and sources and a
drive's fields that do not apply at 0. -/
def OrdersAndDrivesInRange (t : Tables) : Prop :=
  FixedCells t ∧ FixedSources t ∧ (∀ k : Fin 72, t.gate[k].rankLimit ≤ 3) ∧
  (∀ w, let x := t.driveOf (.wheel w)
    Between 1 10000 x.scale ∧ x.nominal = 0 ∧ Between 1 65535 x.stall ∧ Between 1 1000 x.maximum) ∧
  (∀ b, let x := t.driveOf (.blade b)
    x.scale = 0 ∧ Between 1 65535 x.nominal ∧ x.stall = 0 ∧ x.maximum ≤ 4000) ∧
  (let x := t.driveOf .deck;
    x.scale = 0 ∧ x.nominal = 0 ∧ x.stall = 0 ∧ x.maximum = 0) ∧
  (∀ i : Fin 16, t.hazard[i].slowCap ≤ 1000 ∧ t.hazard[i].hold ≤ 10000) ∧ (∀ m : Fin 8, t.counts[m] ≤ 8) ∧
  ∀ m k : Fin 8, let x := t.step m k
    x.left.natAbs ≤ 1000 ∧ x.right.natAbs ≤ 1000 ∧ Between 1 60000 x.amount

/-- R103, R119, R171, R187: the home table and the timing table in their ranges. -/
def HomeAndTimingInRange (t : Tables) : Prop :=
  let h := t.home
  h.seekOffset.natAbs ≤ 500 ∧ Between 1 1000 h.window ∧ h.kp ≤ 255 ∧ h.turnLimit ≤ 1000 ∧ (∀ p, h.base p ≤ 1000) ∧ h.capture ≤ 4095 ∧
    h.approach ≤ 4095 ∧ h.dockMv ≤ 65535 ∧ Between 1 10 h.dockConfirm ∧ Between 10 2000 h.maxFollow ∧ h.outside ≤ 1000 ∧
    h.resumeLevel ≤ 100 ∧ (∀ c ∈ [h.capIdle, h.capMow, h.capFollow, h.capEscape], c ≤ 1000) ∧ Between 500 60000 h.stepLimit ∧
    Between 1 7 h.chainLimit ∧ Between 2 50 t.timing.replyTimeout ∧ Between 20 200 t.timing.refresh ∧ Between 1 3 t.timing.rankFloor ∧
    Between 50 2000 t.timing.liveness

/-- Every field of the twelve tables in the range its chapter gives it, and every rule across entries kept. -/
def TablesInRange (t : Tables) : Prop :=
  NodesInRange t ∧ WireAndBandsInRange t ∧ OrdersAndDrivesInRange t ∧ HomeAndTimingInRange t

end Sys2Proof.Machine
end

