-- ==== Sys2Proof/Certificates/Slice0/Obligations.lean ====
section
/-! DEFINITION. The statements about the model, from the manual's numbered rules. A next state is written `takeToken u`: `u` is what the
command itself leaves, and at the end of every event the drive port master takes a token when its cycle is IDLE (R164), which touches the
drive output queue and the DP cycle alone. That it does so at the end of the event is the model's reading (log entry 15). -/

open Sys2Proof Sys2Proof.Machine

/-! ### The queue, the frames, the life of the device -/

/-- A step takes the command at the front of the queue and is `exec` of it with the queue's rest, and `exec` does not touch that rest. -/
def Obligations.StepTakesTheFrontCommand : Prop :=
  (∀ (c : Instr) (rest : List Instr) (s : State), step (s.setPending (c :: rest)) = exec c (s.setPending rest)) ∧
  ∀ (c : Instr) (s t : State), exec c s = .next t → t.pending = s.pending

/-- Scope section 6 (Time), R194, R107, R118: with no command waiting, a step is the device's own next event: a report on its way to the activity
unit, else a frame for a free CP line, else a timer that has run out, in the order of `dueExpiries`, and it is `exec` of that event. Without one, a
millisecond passes: every running timer has one less to run, the elapsed times grow, and nothing else changes but that a reply can no longer come
together with an expiry. A device without supply or held in RESET idles. R190 (section 9.4): the CP line takes a frame when it is free. That time
passes in such steps, and the order of events that fall together, are the model's choice (log entries 4 and 41), and so is that the elapsed time of
an operation in flight holds at 65535 (log entry 31). -/
def Obligations.StepsWithoutCommandsAreTheDevicesOwn : Prop :=
  ∀ s : State, s.pending = [] →
    let down := fun (x : Option Nat) => x.map fun n => n - 1
    let sends := s.port.line = .free ∧ (s.port.replies ≠ [] ∨ (s.mgmt.startup = .ready ∧ (s.haz.pending ≠ 0 ∨ s.port.mirrors ≠ [])))
    (s.live = false → ownEvent s = none ∧ step s = .next s) ∧
    (∀ i, ownEvent s = some i → step s = exec i s) ∧
    (∀ r rest, s.live = true → s.reports = r :: rest → ownEvent s = some (match r with
      | .completion _ => .escapeCompletionReport
      | .trap _ => .trapReport
      | .stopStepStart => .stopStepStart)) ∧
    (s.live = true → s.reports = [] → sends → ownEvent s = some .cpLineFree) ∧
    (s.live = true → s.reports = [] → ¬sends → ownEvent s = (dueExpiries s).head?) ∧
    (∀ l : Fin 8, .fadeTimerExpiry l ∈ dueExpiries s ↔ s.dec.trackers[l].fade = some 0) ∧
    (∀ n : Fin 8, .nodeDeadlineExpiry n ∈ dueExpiries s ↔ ∃ r ∈ s.haz.nodes[n], r.deadline = some 0) ∧
    (∀ i : Fin 16, .holdTimerExpiry i ∈ dueExpiries s ↔ s.haz.sources[i].hold = some 0) ∧
    (.wireLostDelayExpiry ∈ dueExpiries s ↔ s.haz.wireDelay = some 0) ∧
    (.stepTimerExpiry ∈ dueExpiries s ↔ s.exe.timer.map StepTimer.left = some 0) ∧
    (.replyTimerExpiry ∈ dueExpiries s ↔ s.dp.replyTimer = some 0) ∧
    (.refreshTimerExpiry ∈ dueExpiries s ↔ s.dp.refreshTimer = some 0) ∧
    (.livenessTimerExpiry ∈ dueExpiries s ↔ s.port.liveness = some 0) ∧
    (s.live = true → ownEvent s = none → ∃ t, step s = .next t ∧
      (∀ l : Fin 8, t.dec.trackers[l] = { s.dec.trackers[l] with fade := down s.dec.trackers[l].fade }) ∧
      t.dec = { s.dec with trackers := t.dec.trackers } ∧
      (∀ i : Fin 16, t.haz.sources[i] = { s.haz.sources[i] with hold := down s.haz.sources[i].hold }) ∧
      (∀ n : Fin 8, t.haz.nodes[n] = (s.haz.nodes[n]).map fun r => { r with deadline := down r.deadline }) ∧
      t.haz = { s.haz with sources := t.haz.sources, nodes := t.haz.nodes, wireDelay := down s.haz.wireDelay } ∧
      t.dp = { s.dp with replyTimer := down s.dp.replyTimer, refreshTimer := down s.dp.refreshTimer, raced := none } ∧
      t.port = { s.port with liveness := down s.port.liveness } ∧
      (∀ r x, s.running? = some r → s.exe.timer = some x → t.exe = { s.exe with timer := some ⟨x.run, x.left - 1⟩ } ∧
        t.act = { s.act with stack := { s.act.stack with esc := some { r with elapsed := x.run - (x.left - 1) } } }) ∧
      (s.running? = none ∨ s.exe.timer = none → t.exe = s.exe ∧ t.act = s.act) ∧
      t.mgmt = { s.mgmt with op := s.mgmt.op.map fun o => { o with elapsed := min 65535 (o.elapsed + 1) } } ∧
      t.tables = s.tables ∧ t.env = s.env ∧ t.home = s.home ∧ t.gate = s.gate ∧ t.pins = s.pins ∧ t.reports = s.reports ∧
      t.fresh = s.fresh ∧ t.pending = [])

/-- Each frame row does what the port does with the frame the row stands for (R182, R185, R186). -/
def Obligations.FrameRowsAreTheirFrames : Prop :=
  ∀ (i : Instr) (p : Port) (f : Frame) (s : State), i.frame? = some (p, f) →
    exec i s = .next (takeToken (acceptFrame p f s))

/-- R202, R186, R195: without supply or while RESET is low every frame and every event is ignored; the STOP pin alone keeps its level. During
LOADING a management request for the WN610 that finds a place is answered NOT-READY and nothing else changes; one that finds none, and every other
frame, is discarded. R202 speaks of frames and pin edges: that the device's own events leave a held device as it is, and that the STOP level follows
its edges there, are the model's choice (log entries 8 and 27). R195 answers every request in LOADING alike, also one too short for a tag or even a
code, whose bytes in the reply are free (log entry 6). -/
def Obligations.HeldAndLoadingDevicesTakeNoCommand : Prop :=
  (∀ (i : Instr) (s : State), s.live = false →
    (i ∉ [Instr.powerOn, .resetLow, .resetRise, .powerLoss, .stopPress, .stopRelease] → exec i s = .next s) ∧
    exec .stopPress s = .next (s.setPins { s.pins with stopLow := true }) ∧
    exec .stopRelease s = .next (s.setPins { s.pins with stopLow := false })) ∧
  ∀ (i : Instr) (p : Port) (f : Frame) (s : State),
    i.frame? = some (p, f) → f.payload.length ≤ 24 → s.live = true → s.mgmt.startup = .loading →
    (∀ code tag rest, p = .cp → f.cls = 7#4 → f.h.node = 0x01#8 → f.payload = code :: tag :: rest → placesUsed s < 4 →
      exec i s = .next (s.setPort { s.port with
        replies := s.port.replies ++ [⟨code, tag, .notReady, 0, s.act.epoch, 0, [[]]⟩] })) ∧
    (∀ code, p = .cp → f.cls = 7#4 → f.h.node = 0x01#8 → f.payload = [code] → placesUsed s < 4 →
      exec i s = .next ((s.setFresh (s.fresh + 1)).setPort { s.port with
        replies := s.port.replies ++ [⟨code, Config.freeByte s.fresh, .notReady, 0, s.act.epoch, 0, [[]]⟩] })) ∧
    (p = .cp → f.cls = 7#4 → f.h.node = 0x01#8 → f.payload = [] → placesUsed s < 4 →
      exec i s = .next ((s.setFresh (s.fresh + 2)).setPort { s.port with replies := s.port.replies ++
        [⟨Config.freeByte s.fresh, Config.freeByte (s.fresh + 1), .notReady, 0, s.act.epoch, 0, [[]]⟩] })) ∧
    (p = .cp → f.cls = 7#4 → f.h.node = 0x01#8 → 4 ≤ placesUsed s → exec i s = .next s) ∧
    (¬(p = .cp ∧ f.cls = 7#4 ∧ f.h.node = 0x01#8) → exec i s = .next s)

/-- R202, R206: power-on, a RESET low, a rise of RESET and a loss of power abandon whatever state the device is in: LOADING, every block at its
power-on value, nothing in flight; the memory's contents and its mark stand. While RESET is low a supplied device holds DPDE and MCLK low, CPTX
idle and MDIO released. The values of the caps, of K, of the kept samples and of the last statuses at the start, which the manual gives at READY
alone, are the model's choice (log entry 2), and so are that the held device shows these values (log entry 27) and that a latched press is
dropped (log entry 40). -/
def Obligations.StartUpAbandonsTheState : Prop :=
  ∀ s : State,
    (∃ t, exec .powerOn s = .next t ∧ AtStart t ∧ t.pins = { s.pins with power := true, stopLatch := false } ∧
      t.mgmt.mark = s.mgmt.mark ∧ t.mgmt.memory = s.mgmt.memory ∧ t.pending = s.pending) ∧
    (∃ t, exec .resetRise s = .next t ∧ AtStart t ∧ t.pins = { s.pins with resetLow := false, stopLatch := false } ∧
      t.mgmt.mark = s.mgmt.mark ∧ t.mgmt.memory = s.mgmt.memory ∧ t.pending = s.pending) ∧
    (∃ t, exec .resetLow s = .next t ∧ AtStart t ∧ t.pins = { s.pins with resetLow := true, stopLatch := false } ∧
      t.mgmt.mark = s.mgmt.mark ∧ t.mgmt.memory = s.mgmt.memory ∧ t.pending = s.pending ∧
      (s.pins.power = true → t.outputs = ⟨false, true, true, true⟩)) ∧
    (∃ t, exec .powerLoss s = .next t ∧ AtStart t ∧ t.pins = { s.pins with power := false, stopLatch := false } ∧
      t.mgmt.mark = s.mgmt.mark ∧ t.mgmt.memory = s.mgmt.memory ∧ t.pending = s.pending)

/-- R203, R204: at the end of the image check the device is READY, with the built-in tables when the memory is silent or its image bad,
else with the tables of the image. That the memory holds from then on the bytes it was read with, put there from outside or held since the last
store, is the model's choice (log entries 3 and 29). -/
def Obligations.ImageCheckPutsTablesInPlace : Prop :=
  ∀ (a : MemoryRead) (s : State), s.live = true → s.mgmt.startup = .loading →
    ∃ t, exec (.imageCheckComplete a) s = .next t ∧ t.mgmt.startup = .ready ∧ t.mgmt.op = s.mgmt.op ∧
      t.pins.power = s.pins.power ∧ t.pins.resetLow = s.pins.resetLow ∧ t.pins.stopLow = s.pins.stopLow ∧
      t.pins.stopLatch = false ∧ t.pending = s.pending ∧
      match a with
      | .noAnswer =>
        t.tables = builtinTables ∧ t.mgmt.image = .defaults ∧ t.mgmt.mark = .absent ∧ t.mgmt.memory = s.mgmt.memory
      | .held => t.mgmt.memory = s.mgmt.memory ∧ match checkImage 1 s.mgmt.memory with
        | none => t.tables = builtinTables ∧ t.mgmt.image = .defaults ∧ t.mgmt.mark = .bad
        | some x => t.tables = x.1 ∧ t.mgmt.image = .valid ∧ t.mgmt.mark = .good
      | .bytes l => t.mgmt.memory = l ∧ match checkImage 1 l with
        | none => t.tables = builtinTables ∧ t.mgmt.image = .defaults ∧ t.mgmt.mark = .bad
        | some x => t.tables = x.1 ∧ t.mgmt.image = .valid ∧ t.mgmt.mark = .good

/-- R204, R32, R33 to R41, R75, R86, R88, R94, R100, R105, R121, R160, R178, R193: the READY settings of every block: the caps and K from the
inputs as they stand at READY, the start tokens in the queue and the first of them going out. A wire-lost delay of 0 makes WIRE-LOST true at once and
its source fires; a STOP button that is down, or was pressed during LOADING, pushes HALT {STOP} over [IDLE], and one that is up again is released
within the event. That the kept samples, the last statuses and the heading baseline behind their clear marks hold 0 or none is the model's
choice (log entry 2). -/
def Obligations.ReadySettings : Prop :=
  ∀ (a : MemoryRead) (s : State), s.live = true → s.mgmt.startup = .loading →
    ∃ t, exec (.imageCheckComplete a) s = .next t ∧ t.tables = (placeTables a s).tables ∧
      t.mgmt = { (placeTables a s).mgmt with startup := .ready } ∧ t.pins = { s.pins with stopLatch := false } ∧
      t.pending = s.pending ∧ AtReady s.pins.stopLow (s.pins.stopLow || s.pins.stopLatch) t ∧
      t.port = { s.port with
        rxCp := .idle, rxSp := .idle, rxDp := .idle, mirrors := [], liveness := some t.tables.timing.liveness }

/-- R65, R56, R79, R88, R106, R116: a press of STOP in READY with its source QUIET and no HALT standing pushes HALT with STOP as its cause, takes
the blade shadow, clears blade-enable, stands the wheels still and freezes an escape directly below; during LOADING the press is latched. R88, R77:
a release of STOP lets a RAISED source go to HELD for its hold time, or to QUIET with a hold time of 0; the stack stands. -/
def Obligations.StopPressHaltsAndReleaseStartsTheHold : Prop :=
  ∀ s : State,
    (s.isReady = true → FixedSources s.tables → s.haz.sources[srcStop].cond = false → s.srcState srcStop = .quiet →
      s.act.stack.halt = none → NothingWaits s →
      ∃ u, exec .stopPress s = .next (takeToken u) ∧
        u.act = haltedOver s.act.stack (.source srcStop) s.act ∧ u.exe = executorAtHalt s.act.stack s.exe ∧
        u.pins = { s.pins with stopLow := true } ∧
        u.haz.sources[srcStop] = { s.haz.sources[srcStop] with cond := true, state := .raised, hold := none, raisedSince := true } ∧
        (∀ j : Fin 16, j ≠ srcStop → u.haz.sources[j] = s.haz.sources[j]) ∧
        u.haz.pending.getLsbD 0 = true ∧ u.haz.pending.getLsbD 16 = true ∧
        u.env.req = { s.env.req with left := 0, right := 0 } ∧ u.env.k = 0 ∧ u.env.held.blades = ⟨0, 0, 0⟩ ∧
        u.tables = s.tables ∧ u.dec = s.dec ∧ u.gate = s.gate ∧ u.mgmt = s.mgmt ∧ u.port = s.port ∧
        u.home = s.home ∧ u.pending = s.pending) ∧
    (s.live = true → s.mgmt.startup = .loading →
      exec .stopPress s = .next (s.setPins { s.pins with stopLow := true, stopLatch := true })) ∧
    (s.isReady = true → FixedSources s.tables → s.haz.sources[srcStop].cond = true →
      s.srcState srcStop = .raised →
      ∃ u, exec .stopRelease s = .next (takeToken u) ∧ u.act = s.act ∧ u.pins = { s.pins with stopLow := false } ∧
        u.haz.sources[srcStop].cond = false ∧
        (s.tables.hazard[srcStop].hold = 0 → u.srcState srcStop = .quiet ∧ u.haz.sources[srcStop].hold = none) ∧
        (s.tables.hazard[srcStop].hold ≠ 0 →
          u.srcState srcStop = .held ∧ u.haz.sources[srcStop].hold = some s.tables.hazard[srcStop].hold) ∧
        (∀ j : Fin 16, j ≠ srcStop → u.haz.sources[j] = s.haz.sources[j]) ∧ u.haz.pending.getLsbD 0 = true ∧
        u.tables = s.tables ∧ u.dec = s.dec ∧ u.exe = s.exe ∧ u.home = s.home ∧ u.gate = s.gate ∧ u.mgmt = s.mgmt ∧
        u.port = s.port ∧ u.env.req = s.env.req ∧ u.pending = s.pending)

/-! ### What every step keeps -/

/-- R201, the law of the tables: outside start-up and image operations the tables change only by a WRITE-TABLE taken while the top is IDLE, DOCKED or
HALT. -/
def Obligations.TablesChangeOnlyByTakenWrites : Prop :=
  ∀ (i : Instr) (s t : State), i.wellFormed = true → exec i s = .next t → t.tables ≠ s.tables →
    i ∈ [Instr.powerOn, .resetLow, .resetRise, .powerLoss] ∨ (∃ a, i = .imageCheckComplete a ∧ s.mgmt.startup = .loading) ∨
    (∃ a, i = .loadComplete a ∧ s.top.admitsWrites = true ∧ ∃ o, s.mgmt.op = some o ∧ o.kind = .load) ∨
    (∃ h r, i = .restart h r ∧ ∃ o, s.mgmt.op = some o ∧ o.kind = .load) ∨
    (∃ h r, i = .writeTable h r ∧ s.top.admitsWrites = true ∧ s.mgmt.op = none ∧ effectiveRank s.tables h.rank = 1)

/-- R147, R163, R189, R191: every step keeps the stores within their bounds. R200, R203, with R2, R6, R22, R34, R81, R84, R102, R103, R119, R139,
R140, R158, R171, R184, R187: every step keeps the tables valid, together with the chain count of a standing ESCAPE below the chain limit; and in
valid tables every field lies in the range its chapter gives it, F falls strictly over the breakpoints, the bounds of a band group rise strictly,
the fixed cells and sources stand, and the addresses of present nodes and mapped drives are pairwise distinct. -/
def Obligations.StepsKeepStoresBounded : Prop :=
  (∀ s t : State, StoresBounded s → step s = .next t → StoresBounded t) ∧
  (∀ s t : State, TablesSound s → step s = .next t → TablesSound t) ∧
  ∀ t : Tables, TablesValid t → TablesInRange t

/-- R40, R42, R43: every step keeps K the smallest source cap, every held wheel speed within K and the blades at 0 while blade-enable is
clear. R35 to R38, R40, R42 to R45: in READY every step ends with the derivation of what it has changed: the proximity, slope, load and hazard caps
are those of N, pitch and roll, the percents and the source states as they stand (`CapsFollow`), the held values those of the requests under K, the
blade maxima and blade-enable (`HeldFollows`). -/
def Obligations.StepsKeepTheEnvelope : Prop :=
  ∀ s t : State, EnvelopeSound s → step s = .next t → EnvelopeSound t

/-- R76, R77, R51, R82: every step keeps every source record sound, a disabled source QUIET, an enabled source with a true condition RAISED, so that
no condition rises without moving its source, and every HALT with a cause. -/
def Obligations.StepsKeepRecordsSound : Prop :=
  ∀ s t : State, RecordsSound s → step s = .next t → RecordsSound t

/-- R55, R81, R139, R140: every step keeps the fixed sources of the hazard table and the four fixed cells of the gate table, and with them: while
blade-enable is set, the stack holds MOW and no HALT, its top is MOW or ESCAPE, and STOP, LIFT and TILT are QUIET. -/
def Obligations.StepsKeepFixedEntriesAndBladesGuarded : Prop :=
  ∀ s t : State, BladesSafe s → step s = .next t → BladesSafe t

/-- What the manual gives for start-up (R193, R202, with R3, R10, R19, R32, R41, R75, R76, R100, R105, R121, R160, R178): LOADING, every block at its
power-on value, every timer stopped; and the invariants above hold there. The tables and K of that state, and the values the manual gives only at
READY, are the model's choice (log entries 1 and 2). -/
def Obligations.ResetIsTheStartOfLoadingAndMeetsTheInvariants : Prop :=
  AtStart State.reset ∧ State.reset.dec.n = none ∧ State.reset.dec.outside = false ∧ State.reset.dec.wireLost = true ∧
    (∀ l : Fin 8, State.reset.dec.trackers[l].fade = none) ∧ (∀ c : Fin 32, State.reset.dec.cells[c] = emptyCell) ∧
    (∀ c : Fin 4, State.reset.dec.intakes[c] = ⟨none, 0, false⟩) ∧ State.reset.pending = [] ∧
    StoresBounded State.reset ∧ TablesSound State.reset ∧ EnvelopeSound State.reset ∧ BladesSafe State.reset

/-- R140: while the top is FOLLOW, ESCAPE, DOCKED or HALT no controller drive command writes the requested wheel speeds. -/
def Obligations.ControllerNeverSteersAnAutonomousActivity : Prop :=
  ∀ (i : Instr) (h : Header) (p : List Byte) (s t : State), i.frame? = some (.cp, ⟨5, h, p⟩) → FixedCells s.tables →
    s.top ≠ .idle → s.top ≠ .mow → exec i s = .next t →
    t.env.req.left = s.env.req.left ∧ t.env.req.right = s.env.req.right

/-! ### Frames and images as bytes -/

/-- R180, R181, R211: the bytes of any frame of a class, a header and up to 24 payload bytes, received without damage, are accepted as that frame;
and a run that is accepted was whole, undamaged and at most 30 bytes, and its bytes are those of the frame it is accepted as. Section 11.1: byte 0
holds class, rank, origin bit and bit 0, then node, epoch and length, the payload, and the check word with its low byte first. R211: the data of a
reply is cut into pieces of 19 bytes and a last one of at most 19, a reply without data being one empty piece. -/
def Obligations.FramesTheirBytesAndReplyPiecesAgree : Prop :=
  (∀ (cls : BitVec 4) (h : Header) (payload : List Byte), payload.length ≤ 24 →
    checkRun (rxRun ((frameBytes cls h payload).map fun b => ⟨b, true⟩)) = some ⟨cls, h, payload⟩) ∧
  (∀ (run : List LineByte) (f : Frame), checkRun (rxRun run) = some f →
    f.payload.length ≤ 24 ∧ (∀ b ∈ run, b.stopBit = true) ∧ run.map LineByte.value = frameBytes f.cls f.h f.payload) ∧
  (∀ (cls : BitVec 4) (h : Header) (payload : List Byte),
    let first := 16 * cls.toNat + 4 * h.rank.toNat + 2 * h.origin.toNat + h.bit0.toNat
    let body := bytesOf 1 first ++ [h.node, h.epoch] ++ bytesOf 1 payload.length ++ payload
    frameBytes cls h payload = body ++ bytesOf 2 (checkWord body).toNat) ∧
  ∀ l : List Byte, let x := cutData l.length l
    x.flatten = l ∧ x ≠ [] ∧ (∀ c ∈ x, c.length ≤ 19) ∧ (∀ c ∈ x.dropLast, c.length = 19) ∧ (l = [] → x = [[]])

/-- R203, R205: the image of valid tables passes every test of the image check and gives those tables back with no field brought into range. -/
def Obligations.StoredImageLoadsBack : Prop :=
  ∀ t : Tables, TablesValid t → checkImage 1 t.image = some (t, false)

/-! ### Rules of single operations -/

/-- R8: C_r sums the 16 products of sample and rotated chip, and lies in −2048 to +2048 for samples in −128 to +127. R19, R20: an update of a cell
stores C_on, the strength, the distance of that strength, the sign and the filtered state, makes the mark FRESH and advances frames used. R21, R24,
R25: the strength, the sign and the filtered state, and the bounds of the filtered state. R23: the distance is interpolated on the breakpoint table:
the end distances beyond its ends, a breakpoint's own distance at its strength, and between two breakpoints the truncated interpolation, which stays
between their distances. -/
def Obligations.CorrelationStrengthAndDistance : Prop :=
  (∀ (code : BitVec 16) (x : Vector Int 16) (r : Fin 16), (∀ i : Fin 16, -128 ≤ x[i] ∧ x[i] ≤ 127) →
    correlation code x.toList r = ∑ i : Fin 16, (if code.getLsbD (i + r).val then 1 else -1) * x[i] ∧
      -2048 ≤ correlation code x.toList r ∧ correlation code x.toList r ≤ 2048) ∧
  (∀ (t : Tables) (l : LoopEntry) (gain : Nat) (con : Int) (c : EstCell), 1 ≤ l.alpha → l.alpha ≤ 16 →
    (updateCell t l gain false con c).f = min 4095 (con.natAbs * gain / 64) ∧
    (updateCell t l gain true con c).f = 4095 ∧
    ∀ sat : Bool, let x := updateCell t l gain sat con c
      x.con = con ∧ x.d = distance t x.f ∧ x.mark = .fresh ∧ x.used = (if c.mark = .fresh then min 65535 (c.used + 1) else 1) ∧
      (con ≠ 0 → x.sign.val = con.sign * l.polarity.val) ∧
      (con = 0 → x.sign = if c.mark = .fresh then c.sign else .plus) ∧
      (c.mark ≠ .fresh → x.e = 16 * (x.sign.val * x.d)) ∧
      (c.mark = .fresh → x.e = c.e + ((16 * (x.sign.val * x.d) - c.e) * l.alpha).tdiv 16) ∧
      (l.alpha = 16 → x.e = 16 * (x.sign.val * x.d)) ∧
      (x.d ≤ 1000 → c.e.natAbs ≤ 16000 → x.e.natAbs ≤ 16000) ∧ x.reported = x.e.tdiv 16) ∧
  ∀ (t : Tables) (f : Nat), (∀ j : Fin 7, (t.point (j.val + 1)).f < (t.point j.val).f) →
    (∀ j : Fin 7, (t.point j.val).d ≤ (t.point (j.val + 1)).d) →
    ((t.point 0).f ≤ f → distance t f = (t.point 0).d) ∧ (f ≤ (t.point 7).f → distance t f = (t.point 7).d) ∧
    (∀ j : Fin 8, f = (t.point j.val).f → distance t f = (t.point j.val).d) ∧
    ∀ j : Fin 7, f < (t.point j.val).f → (t.point (j.val + 1)).f ≤ f →
      distance t f = (t.point j.val).d + ((t.point j.val).f - f) * ((t.point (j.val + 1)).d - (t.point j.val).d) /
        ((t.point j.val).f - (t.point (j.val + 1)).f) ∧
      (t.point j.val).d ≤ distance t f ∧ distance t f ≤ (t.point (j.val + 1)).d

/-- R11 to R16: what a decoded frame does at a tracker. The slip check of R12 moves the rotation by at most one chip. In SEARCH a frame of the
reference coil is searched for the lowest rotation of the largest magnitude, and the run of frames that agree on it leads to LOCKED; in LOCKED
weak frames lead to FADING, in FADING a strong one leads back; frames of other coils move no tracker. -/
def Obligations.TrackersAcquireFollowAndFade : Prop :=
  ∀ (l : LoopEntry) (gap : Bool) (x : List Int) (t : Tracker), 1 ≤ l.lockCount → 1 ≤ l.loseCount →
    let cor := fun (r : Fin 16) => correlation l.code x r
    let exceeds := fun (r : Fin 16) => (cor t.rho).natAbs + l.slip < (cor r).natAbs
    let slip := slipCheck l x t.rho
    let lose := if slip.2.natAbs < l.tlose then t.lose + 1 else 0
    (¬exceeds (t.rho - 1) → ¬exceeds (t.rho + 1) → slip = (t.rho, cor t.rho)) ∧
    (exceeds (t.rho - 1) → ¬exceeds (t.rho + 1) ∨ (cor (t.rho + 1)).natAbs < (cor (t.rho - 1)).natAbs →
      slip = (t.rho - 1, cor (t.rho - 1))) ∧
    (exceeds (t.rho + 1) → ¬exceeds (t.rho - 1) ∨ (cor (t.rho - 1)).natAbs < (cor (t.rho + 1)).natAbs →
      slip = (t.rho + 1, cor (t.rho + 1))) ∧
    (exceeds (t.rho - 1) → (cor (t.rho - 1)).natAbs = (cor (t.rho + 1)).natAbs → slip = (t.rho, cor t.rho)) ∧
    (∀ best : Fin 16, t.state = .search → (∀ r, (cor r).natAbs ≤ (cor best).natAbs) →
      (∀ r, r < best → (cor r).natAbs < (cor best).natAbs) →
      let run := if gap then 0 else t.run
      let n := if best = t.cand ∧ 0 < run then run + 1 else 1
      ((cor best).natAbs < l.tlock → trackerStep l true gap x t = ({ t with run := 0 }, none)) ∧
      (l.tlock ≤ (cor best).natAbs → n < l.lockCount →
        trackerStep l true gap x t = ({ t with cand := best, run := n }, none)) ∧
      (l.tlock ≤ (cor best).natAbs → l.lockCount ≤ n → trackerStep l true gap x t =
        ({ t with state := .locked, rho := best, cand := best, run := n, lose := 0 }, some (cor best)))) ∧
    (t.state = .locked →
      trackerStep l true gap x t =
        (if l.loseCount ≤ lose then { t with state := .fading, rho := slip.1, lose := 0, fade := some l.fadeTime }
          else { t with rho := slip.1, lose := lose }, some slip.2)) ∧
    (t.state = .fading →
      trackerStep l true gap x t =
        (if l.tlock ≤ slip.2.natAbs then { t with state := .locked, rho := slip.1, lose := 0, fade := none }
          else { t with rho := slip.1 }, some slip.2)) ∧
    (t.state = .locked ∨ t.state = .fading → trackerStep l false gap x t = (t, some (cor t.rho))) ∧
    (t.state = .search → trackerStep l false gap x t = (t, none)) ∧
    ∀ ref : Bool, t.state = .off → trackerStep l ref gap x t = (t, none)

/-- R26 to R29, R94: the re-evaluation of the decoder's outputs. N is the smallest reported distance of the contributing cells of PERIMETER and ISLAND
loops, none without one; OUTSIDE is true with one beyond the margin, false when none is on the wrong side, and else as it was; WIRE-LOST is true
while no PERIMETER loop is followed. A changed output is handed to the envelope unit, to source 8, or to the wire-lost delay and source 9, whose
conditions move their sources and fire their responses as `setCondition` says (R77, R79). That N, OUTSIDE and WIRE-LOST are handed on in this order
is read from the rules (log entry 19), and so is that the responses of OUTSIDE and WIRE-LOST are two events at the activity unit, each with its own
advance of the epoch (log entry 17). -/
def Obligations.DecoderOutputsFollowTheContributingCells : Prop :=
  ∀ s : State, let u := reevaluate s
    let followed := fun (l : Fin 8) => s.dec.trackers[l].state = .locked ∨ s.dec.trackers[l].state = .fading
    let counts := fun (l : Fin 8) (c : Fin 4) => s.tables.loop[l].cls ≠ .guide ∧ (s.dec.cell l c).mark = .fresh ∧ followed l ∧
      nodeSilent s.haz (coilNode c) = false
    let reported := fun (l : Fin 8) (c : Fin 4) => (s.dec.cell l c).e.tdiv 16
    let margin : Int := s.tables.home.outside
    let delay := s.tables.sensor.wireDelay
    let lost := fun (v : State) => v.haz.sources[srcWireLost].cond
    let out := fun (v : State) => v.haz.sources[srcOutside].cond
    (∀ l c, counts l c → (∀ l' c', counts l' c' → reported l c ≤ reported l' c') → u.dec.n = some (reported l c)) ∧
    ((∀ l c, ¬counts l c) → u.dec.n = none) ∧
    ((∃ l c, counts l c ∧ reported l c < -margin) → u.dec.outside = true) ∧
    ((∀ l c, counts l c → 0 ≤ reported l c) → u.dec.outside = false) ∧
    ((∀ l c, counts l c → -margin ≤ reported l c) → (∃ l c, counts l c ∧ reported l c < 0) → u.dec.outside = s.dec.outside) ∧
    ((∃ l : Fin 8, s.tables.loop[l].cls = .perimeter ∧ followed l) → u.dec.wireLost = false) ∧
    ((∀ l : Fin 8, s.tables.loop[l].cls = .perimeter → ¬followed l) → u.dec.wireLost = true) ∧
    u.dec = { s.dec with n := u.dec.n, outside := u.dec.outside, wireLost := u.dec.wireLost } ∧
    u.env.n = (if u.dec.n = s.dec.n then s.env.n else u.dec.n) ∧
    out u = (if u.dec.outside = s.dec.outside then out s else u.dec.outside) ∧
    (u.dec.wireLost = s.dec.wireLost → u.haz.wireDelay = s.haz.wireDelay ∧ lost u = lost s) ∧
    (s.dec.wireLost = true → u.dec.wireLost = false → u.haz.wireDelay = none ∧ lost u = false) ∧
    (s.dec.wireLost = false → u.dec.wireLost = true →
      (delay = 0 → u.haz.wireDelay = none ∧ lost u = true) ∧ (delay ≠ 0 → u.haz.wireDelay = some delay ∧ lost u = lost s)) ∧
    (let a := if u.dec.n = s.dec.n then s
        else refresh ((s.setDec { s.dec with n := u.dec.n }).setEnv { s.env with n := u.dec.n })
      let b := if u.dec.outside = s.dec.outside then a
        else setCondition srcOutside u.dec.outside (a.setDec { a.dec with outside := u.dec.outside })
      let v := b.setDec { b.dec with wireLost := u.dec.wireLost }
      (u.dec.wireLost = s.dec.wireLost → u = b) ∧
      (s.dec.wireLost = true → u.dec.wireLost = false →
        u = setCondition srcWireLost false (v.setHaz { v.haz with wireDelay := none })) ∧
      (s.dec.wireLost = false → u.dec.wireLost = true →
        (delay = 0 → u = setCondition srcWireLost true (v.setHaz { v.haz with wireDelay := none })) ∧
        (delay ≠ 0 → u = v.setHaz { v.haz with wireDelay := some delay }))) ∧
    u.haz.nodes = s.haz.nodes ∧ u.tables = s.tables ∧ u.mgmt = s.mgmt ∧ u.pins = s.pins ∧ u.port = s.port

/-- R30, R121 to R125, R127: an update of a front coil cell that contributes is handed to the homing unit with its e and F. A hand-off of the
guide loop sets the guide view and makes at most one phase change; the hand-off of the followed loop is steered on, or writes (0, 0) in CONTACT. A
FOLLOW that comes on top is settled. The loss of the followed loop takes the phase back to SEEK on the perimeter loop and stands the wheels still.
-/
def Obligations.HomingFollowsTheWire : Prop :=
  ∀ s : State, let t := s.tables
    let guide := t.home.guide
    (∀ (c : Fin 4) (gap : Bool) (x : List Int) (l : Fin 8), t.loop[l].enabled = true →
      let con := (trackerStep t.loop[l] (t.loop[l].refCoil = c) gap x s.dec.trackers[l]).2
      let u := applyToLoop c gap x s l
      (con = none ∨ t.frontCoil ≠ some c ∨ nodeSilent s.haz (coilNode c) = true →
        u.act = s.act ∧ u.home = s.home ∧ u.env = s.env) ∧
      (con ≠ none → t.frontCoil = some c → nodeSilent s.haz (coilNode c) = false →
        ∃ v, u = handOff l (u.dec.cell l c).e (u.dec.cell l c).f v ∧ v.act = s.act ∧ v.home = s.home ∧ v.env = s.env ∧
          v.tables = t ∧ v.dec = u.dec)) ∧
    (∀ (l : Fin 8) (e : Int) (f : Nat), let u := handOff l e f s
      u.home = { s.home with guideView := if l = guide then some f else s.home.guideView } ∧
      (s.top ≠ .follow → u.act = s.act ∧ u.env = s.env) ∧
      ∀ r, s.top = .follow → s.act.stack.follow? = some r →
        let next : FollowRec :=
          if l = guide ∧ r.phase = .seek ∧ t.home.capture ≤ f ∧ s.dec.trackers[guide].state = .locked then
            { r with phase := .track, loop := guide }
          else if l = guide ∧ r.phase = .track ∧ t.home.approach ≤ f then { r with phase := .approach }
          else r
        u.act = { s.act with stack := { s.act.stack with home := some (.follow next) } } ∧
        (next.loop ≠ l → u.env.req = s.env.req) ∧
        (next.loop = l → next.phase = .contact → u.env.req = { s.env.req with left := 0, right := 0 }) ∧
        (next.loop = l → next.phase ≠ .contact →
          let w := steerPair t.home next.phase e
          u.env.req = { s.env.req with left := w.1, right := w.2 })) ∧
    (∀ r, s.top = .follow → s.act.stack.follow? = some r → let u := settleFollow s
      let again := s.dec.trackers[guide].state = .locked ∧ ∃ f ∈ s.home.guideView, t.home.capture ≤ f
      (r.phase = .seek ∨ ¬again → u.act.stack.follow? = some { r with phase := .seek, loop := t.home.perimeter, confirm := 0 }) ∧
      (r.phase ≠ .seek → again → u.act.stack.follow? = some { r with phase := .track, loop := guide, confirm := 0 }) ∧
      u.home = { s.home with reported := false } ∧ u.env = s.env) ∧
    ∀ l : Fin 8, let u := loopLost l s
      u.home.guideView = (if l = guide then none else s.home.guideView) ∧
      (∀ r, s.top = .follow → s.act.stack.follow? = some r → r.loop = l →
        (r.phase = .seek → u.act = s.act ∧ u.home.reported = s.home.reported) ∧
        (r.phase ≠ .seek → u.home.reported = false ∧
          u.act.stack.follow? = some { r with phase := .seek, loop := t.home.perimeter, confirm := 0 }) ∧
        u.env.req = { s.env.req with left := 0, right := 0 }) ∧
      (s.top ≠ .follow ∨ (∀ r ∈ s.act.stack.follow?, r.loop ≠ l) → u.act = s.act ∧ u.env = s.env)

/-- R77, R79: the table of condition changes for an enabled source, a value formed again, and a disabled source. The second part of `hazardMove`
says whether the response fires; where it fires, the condition's event goes on with the response at the activity unit. Every change of state makes
the source's notice pending and forms the caps, K and the held values anew (R38, R40, R45); where the state stands, neither happens. -/
def Obligations.ConditionChangesMoveTheSource : Prop :=
  ∀ (i : Fin 16) (v : Bool) (s : State), let r := s.haz.sources[i]
    let x := hazardMove i v s
    (r.cond = v → x = (s, false)) ∧
    (r.cond ≠ v → s.tables.hazard[i].enabled = false → x.2 = false ∧ x.1.haz.sources[i] = { r with cond := v }) ∧
    (r.cond = false → v = true → s.tables.hazard[i].enabled = true → r.state = .quiet →
      x.2 = true ∧ x.1.haz.sources[i] = { r with cond := true, state := .raised, hold := none, raisedSince := true }) ∧
    (r.cond = false → v = true → s.tables.hazard[i].enabled = true → r.state = .held →
      x.2 = false ∧ x.1.haz.sources[i] = { r with cond := true, state := .raised, hold := none, raisedSince := true }) ∧
    (r.cond = true → v = false → s.tables.hazard[i].enabled = true → r.state = .raised → x.2 = false ∧
      x.1.haz.sources[i] =
        if s.tables.hazard[i].hold = 0 then { r with cond := false, state := .quiet, hold := none }
        else { r with cond := false, state := .held, hold := some s.tables.hazard[i].hold }) ∧
    x.1.haz.pending = (if x.1.haz.sources[i].state = r.state then s.haz.pending else s.haz.pending ||| BitVec.twoPow 20 i.val) ∧
    (x.1.haz.sources[i].state ≠ r.state → CapsFollow x.1 x.1.env.caps ∧ x.1.env.k = x.1.env.caps.effective ∧ HeldFollows x.1) ∧
    (x.1.haz.sources[i].state = r.state → x.1.env = s.env) ∧
    (∀ j : Fin 16, j ≠ i → x.1.haz.sources[j] = s.haz.sources[j]) ∧ x.1.act = s.act ∧ x.1.tables = s.tables ∧
    setCondition i v s = if x.2 then actEvent (responseChange i) x.1 else x.1

/-- R33, R35 to R40: each source cap as a derivation forms it from its input, and K as the smallest of the five. A banded cap is that of the first of
bands 0, 1 and 2 whose bound the value is below, else of band 3. The activity cap is kept: it is set when a top is handed over, by a write of the
home table and at READY (R39, R54), of which the statements of those events speak. -/
def Obligations.SourceCapsFollowTheirInputs : Prop :=
  ∀ s : State, let u := refresh s
    let c := u.env.caps
    CapsFollow s c ∧
    c.activity = s.env.caps.activity ∧
    u.env.k ≤ c.proximity ∧ u.env.k ≤ c.slope ∧ u.env.k ≤ c.load ∧ u.env.k ≤ c.hazard ∧ u.env.k ≤ c.activity ∧
    u.env.k ∈ [c.proximity, c.slope, c.load, c.hazard, c.activity] ∧ u.env.req = s.env.req ∧ u.env.n = s.env.n ∧
    u.env.pitch = s.env.pitch ∧ u.env.roll = s.env.roll ∧ u.env.percents = s.env.percents ∧
    u.act = s.act ∧ u.haz = s.haz ∧ u.tables = s.tables

/-- R42: the held pair is the requested pair when it fits K; else the faster wheel runs at exactly K and the slower at its truncated share, in the
direction asked for. Every derivation forms the held pair so, against the K it forms, and the held blades and height (R43, R44). R45, R163: the token
of each mapped drive whose held value changed joins the drive output queue behind what is there, once and unless it is there already, and no other
token joins; their order is left open here (log entry 43). So after any command of a READY device, but for a RESTART, which sets the held values
back without a derivation (R41), each mapped drive whose held value changed has its token in the queue, or that token has just been taken and is
going out; that the token is taken at the end of the event is the model's reading (log entry 15). -/
def Obligations.WheelsScaleToTheCap : Prop :=
  (∀ (a b : Int) (k : Nat), let m := max a.natAbs b.natAbs
    let w := scaleWheels a b k
    (m ≤ k → w = (a, b)) ∧
    (k < m → w = ((a * k).tdiv m, (b * k).tdiv m) ∧ max w.1.natAbs w.2.natAbs = k ∧ 0 ≤ w.1 * a ∧ 0 ≤ w.2 * b) ∧
    w.1.natAbs ≤ k ∧ w.2.natAbs ≤ k) ∧
  (∀ s : State, let u := refresh s
    HeldFollows u ∧ u.env.req = s.env.req ∧ u.dp = { s.dp with queue := u.dp.queue } ∧
    ∃ l : List Token, u.dp.queue = s.dp.queue ++ l ∧ l.Nodup ∧
      ∀ x, x ∈ l ↔ HeldChanged x s.env.held u.env.held ∧ s.tables.mapped x.drive = true ∧ x ∉ s.dp.queue) ∧
  ∀ (i : Instr) (s t : State), i.wellFormed = true → (∀ h r, i ≠ .restart h r) → s.isReady = true → t.isReady = true →
    exec i s = .next t → ∀ x : Token, HeldChanged x s.env.held t.env.held → t.tables.mapped x.drive = true →
      x ∈ t.dp.queue ∨ ∃ f, t.dp.cycle = .sending f ∧ f.token = x

/-- R124: the steering law: straight at the base speed outside the capture window, else the turn truncated and brought into the turn limit, the pair
brought into −1000 to +1000. -/
def Obligations.SteeringTurnsTowardTheTarget : Prop :=
  ∀ (h : HomeTable) (p : Phase) (e : Int), h.base p ≤ 1000 →
    let target := match p with
      | .seek => h.seekOffset
      | .track | .approach | .contact => 0
    let err := h.sense.val * (e - 16 * target)
    let w := steerPair h p e
    (16 * h.window < err.natAbs → w = ((h.base p : Int), (h.base p : Int))) ∧
    (err.natAbs ≤ 16 * h.window → let turn : Int := max (-h.turnLimit) (min h.turnLimit ((err * h.kp).tdiv 256))
      0 ≤ turn * err ∧
      w.1 = max (-1000) (min 1000 (h.base p + turn)) ∧ w.2 = max (-1000) (min 1000 (h.base p - turn))) ∧
    w.1.natAbs ≤ 1000 ∧ w.2.natAbs ≤ 1000

/-- R70, R122, R128, R129, R131, R133, R134: what a power sample does at the homing unit. While a DOCKED record stands it moves the contact state, the
last charge percent and the ready flag; in APPROACH a contact stops the mower in CONTACT, further ones raise the confirm count and a sample without
contact falls back to APPROACH; the count that reaches the dock confirm value, with nothing waiting for a top change, replaces FOLLOW by DOCKED. A
deferred LEAVE-DOCK that waits for that top change may start the undock escape in the same event, whose speeds then stand (R54, R73, R107). -/
def Obligations.PowerSamplesConfirmAndWatchTheDock : Prop :=
  ∀ (x : PowerSample) (s : State), let u := powerToHoming x s
    let contact : Bool := decide (s.tables.home.dockMv ≤ x.dockMv)
    let full := s.tables.home.dockConfirm
    let charged := fun (p : Nat) => decide (s.tables.home.resumeLevel ≤ p)
    (∀ r, s.act.stack.docked? = some r →
      u.act = { s.act with stack := { s.act.stack with home := some (.docked { r with contact := contact }) } } ∧
      u.home = { s.home with lastPercent := some x.percent, ready := s.act.stack.mow.isSome && charged x.percent } ∧
      u.haz.pending.getLsbD 19 =
        (s.haz.pending.getLsbD 19 || decide (r.contact ≠ contact) || decide (u.home.ready ≠ s.home.ready)) ∧
      u.haz.sources = s.haz.sources ∧ u.env = s.env ∧ u.exe = s.exe ∧ u.gate = s.gate ∧ SameConfig s u) ∧
    (s.act.stack.docked? = none → s.top ≠ .follow → u = s) ∧
    ∀ r, s.top = .follow → s.act.stack.follow? = some r →
      let n := if r.phase = .contact then min full (r.confirm + 1) else 1
      let follow := fun (r : FollowRec) => { s.act with stack := { s.act.stack with home := some (.follow r) } }
      (r.phase = .seek ∨ r.phase = .track ∨ (r.phase = .approach ∧ contact = false) → u = s) ∧
      (r.phase = .contact → contact = false → u.act = follow { r with phase := .approach, confirm := 0 } ∧
        u.home = { s.home with reported := false } ∧ u.env = s.env ∧ u.haz = s.haz) ∧
      (r.phase = .approach ∨ r.phase = .contact → contact = true →
        ((r.phase = .approach ∧ (n < full ∨ s.home.reported = true)) ∨ (full ≤ n ∧ s.home.reported = false ∧ NothingWaits s) →
          u.env.req = { s.env.req with left := 0, right := 0 }) ∧
        (n < full ∨ s.home.reported = true → u.act = follow { r with phase := .contact, confirm := n } ∧ u.home = s.home ∧
          u.haz = s.haz ∧ (r.phase = .contact → u.env = s.env)) ∧
        (full ≤ n → s.home.reported = false → NothingWaits s →
          let mow := if r.endAfter then none else s.act.stack.mow
          u.act = { s.act with
            stack := { s.act.stack with home := some (.docked ⟨s.act.epoch + 1, true, r.endAfter⟩), mow := mow }
            epoch := s.act.epoch + 1, bladeEnable := false } ∧
          u.home.lastPercent = (if s.haz.kept.powerTaken then some s.haz.kept.power.percent else none) ∧
          u.home.ready = (mow.isSome && s.haz.kept.powerTaken && charged s.haz.kept.power.percent) ∧
          u.haz.sources[srcBatteryLow].cond = false ∧ u.haz.pending.getLsbD 16 = true ∧ u.haz.pending.getLsbD 19 = true ∧
          u.env.k = 0 ∧ u.exe.held = none ∧ u.gate = s.gate ∧ SameConfig s u))

/-- R108, R110, R112, R126, R130: the progress of DIST and TURN steps and of the travelled distance. An odometry update adds its magnitude to a
running DIST step, which ends at twice its amount; a heading adds its change to a running TURN step, or is its first baseline; under FOLLOW an
update grows the travelled distance by half-millimetres, and beyond the follow limit, with nothing waiting for a top change, HALT {NO-DOCK} is
pushed. -/
def Obligations.ProgressEndsStepsAndLimitsTheFollow : Prop :=
  ∀ s : State,
    let ends := fun (r : EscRec) (p : Nat) (u : State) =>
      (r.step.val + 1 < s.tables.counts[r.man] → StepStarts r (r.step + 1) r.chain s u) ∧
      (s.tables.counts[r.man] ≤ r.step.val + 1 → EscapeEnds { r with progress := p } (.completion r.entry) s u) ∧
      u.act.epoch = s.act.epoch ∧ u.act.bladeEnable = s.act.bladeEnable ∧ u.act.stack.mow = s.act.stack.mow ∧
      u.act.stack.home = s.act.stack.home ∧ u.act.stack.halt = s.act.stack.halt ∧ u.haz = s.haz ∧ u.gate = s.gate ∧
      u.port = s.port ∧ u.home = s.home ∧ SameConfig s u
    (∀ mm : Int, (∀ r, s.running? = some r → (s.tables.step r.man r.step).kind ≠ .dist) → odometryToEscape mm s = s) ∧
    (∀ (mm : Int) (r : EscRec), s.running? = some r → (s.tables.step r.man r.step).kind = .dist →
      let p := r.progress + mm.natAbs
      let target := 2 * (s.tables.step r.man r.step).amount
      (p < target → odometryToEscape mm s = s.setStack { s.act.stack with esc := some { r with progress := p } }) ∧
      (target ≤ p → ends r p (odometryToEscape mm s))) ∧
    (∀ heading : Nat, (∀ r, s.running? = some r → (s.tables.step r.man r.step).kind ≠ .turn) → headingToEscape heading s = s) ∧
    (∀ (heading : Nat) (r : EscRec), s.running? = some r → (s.tables.step r.man r.step).kind = .turn →
      let now := heading % 3600
      let amount := (s.tables.step r.man r.step).amount
      (s.exe.baseline = none → headingToEscape heading s = s.setExe { s.exe with baseline := some now }) ∧
      ∀ (b : Nat) (d : Int), s.exe.baseline = some b → -1800 ≤ d → d ≤ 1799 →
        d = now - b ∨ d = now - b + 3600 ∨ d = now - b - 3600 →
        let p := r.progress + d.natAbs
        (p < amount → headingToEscape heading s =
          (s.setStack { s.act.stack with esc := some { r with progress := p } }).setExe { s.exe with baseline := some now }) ∧
        (amount ≤ p → ends r p (headingToEscape heading s))) ∧
    (∀ mm : Int, s.top ≠ .follow → odometryToHoming mm s = s) ∧
    ∀ (mm : Int) (r : FollowRec), s.top = .follow → s.act.stack.follow? = some r → let u := odometryToHoming mm s
      let sum := 2 * r.travelled + s.home.remainder + mm.natAbs
      let k := { s.act.stack with home := some (.follow { r with travelled := sum / 2 }) }
      (sum / 2 ≤ s.tables.home.maxFollow * 1000 → u = (s.setStack k).setHome { s.home with remainder := sum % 2 }) ∧
      (s.tables.home.maxFollow * 1000 < sum / 2 → NothingWaits s →
        u.act = haltedOver k .noDock s.act ∧ u.home = { s.home with remainder := sum % 2 } ∧ u.env.k = 0 ∧
        u.env.req = { s.env.req with left := 0, right := 0 } ∧ u.exe = executorAtHalt k s.exe ∧
        u.haz.sources = s.haz.sources ∧ u.haz.pending.getLsbD 16 = true ∧ u.gate = s.gate ∧ SameConfig s u)

/-- R65 to R68, R115: what the response of a source does at the activity unit, with nothing else waiting for a top change: HALT pushes or joins;
ESCAPE by the top pushes an escape, replaces one whose running step names the source in its abort mask or makes the trap, is owed, stands the
wheels still, or does nothing; RETURN pushes FOLLOW over MOW, or sets the pending return; SLOW and NOTE change nothing. -/
def Obligations.ResponsesActByTheTop : Prop :=
  ∀ (i : Fin 16) (s : State), NothingWaits s → let u := actEvent (responseChange i) s
    let h := s.tables.hazard[i]
    let k := s.act.stack
    let still := { s.env.req with left := 0, right := 0 }
    let owes := u = setSource i { s.haz.sources[i] with owed := true } s
    (h.response = .slow ∨ h.response = .note → u = s) ∧
    (h.response = .halt ∨ (h.response = .escape ∧ s.tables.counts[h.manoeuvre] = 0) →
      (∀ r, k.halt = some r → u = s.setStack { k with halt := some { r with causes := r.causes.add (.source i) } }) ∧
      (k.halt = none → u.act = haltedOver k (.source i) s.act ∧ u.exe = executorAtHalt k s.exe ∧ u.env.req = still ∧ u.env.k = 0 ∧
        u.haz = (markNotice 16 s).haz ∧ u.home = s.home ∧ u.gate = s.gate ∧ u.port = s.port ∧ SameConfig s u)) ∧
    (h.response = .escape → s.tables.counts[h.manoeuvre] ≠ 0 → (∀ x ∈ s.exe.held, x.entry ≠ s.act.epoch + 1) →
      (s.top = .mow ∨ s.top = .follow → EscapeTakenUp (.source i) h.manoeuvre 0 s u ∧ u.act.stack.home = k.home ∧
        u.haz = (markNotice 16 s).haz) ∧
      (∀ r, s.top = .escape → k.esc = some r →
        let masked := (s.tables.step r.man r.step).mask.getLsbD i.val
        (masked = false → owes) ∧
        (masked = true → r.chain + 1 < s.tables.home.chainLimit →
          EscapeTakenUp (.source i) h.manoeuvre (r.chain + 1) s u ∧ u.act.stack.home = k.home ∧ u.haz = (markNotice 16 s).haz) ∧
        (masked = true → s.tables.home.chainLimit ≤ r.chain + 1 →
          u.act = haltedOver { k with esc := none } (.source srcTrapped) s.act ∧ u.haz.sources[srcTrapped].cond = true ∧
          (∀ j : Fin 16, j ≠ srcTrapped → u.haz.sources[j] = s.haz.sources[j]) ∧ u.exe.held = none ∧ u.exe.timer = none ∧
          u.env.req = still ∧ u.env.k = 0 ∧ u.home = s.home ∧ u.gate = s.gate ∧ SameConfig s u)) ∧
      (s.top = .idle → u.act = s.act ∧ u.env.req = still ∧ u.haz = s.haz ∧ u.exe = s.exe ∧ u.home = s.home ∧ u.gate = s.gate ∧
        SameConfig s u) ∧
      (s.top = .docked → u = s) ∧ (s.top = .halt → owes)) ∧
    (h.response = .ret →
      (k.home ≠ none → u = s) ∧
      (s.top = .mow → u.act = { s.act with
          stack := { k with home := some (.follow ⟨true, s.act.epoch + 1, s.tables.home.perimeter, .seek, 0, false, 0⟩) }
          epoch := s.act.epoch + 1, bladeEnable := false } ∧ u.env.req = still ∧
        u.home = { s.home with remainder := 0, reported := false } ∧ u.exe.held = none ∧ u.haz = (markNotice 16 s).haz ∧
        u.gate = s.gate ∧ SameConfig s u) ∧
      (k.home = none → s.top = .escape ∨ s.top = .halt → k.mow ≠ none → u = s.setAct { s.act with pendingReturn := true }) ∧
      (k.home = none → k.mow = none → u = s))

/-- R71 to R73, R148: the processing at a top change: the pending return, then the owed responses in source order, then the deferred order, once each
and each on the stack as the one before left it; without a top change nothing of it happens. A deferred drive command is always refused, at the latest
as STALE; a deferred request is taken, refused, or deferred again. R54, R39, R47: none of the three hands a passing top to the envelope unit; at the
close of the event it is handed the final top, and the requested wheel pair is zeroed unless a step of an escape starts. That an event whose top has
changed and come back is closed so too is the model's choice (log entry 44). -/
def Obligations.TopChangesTakeUpWhatWaits : Prop :=
  ∀ e : Ev, let s := e.s
    let k := s.act.stack
    let epoch := if e.bumped then s.act.epoch else s.act.epoch + 1
    let halting := fun (k : Stack) (c : HaltCause) => { s.act with
      stack := { k with halt := some ⟨epoch, CauseSet.none.add c⟩ }, epoch := epoch, bladeEnable := false, shadow := s.act.bladeEnable }
    (e.topChanged = false → process e = e) ∧
    (e.topChanged = true → process e = regate (owedStep (owedStep (owedStep (owedStep (owedStep (owedStep (owedStep (owedStep
      (owedStep (owedStep (owedStep (owedStep (owedStep (owedStep (owedStep (owedStep (pendingReturnStep e)
        0) 1) 2) 3) 4) 5) 6) 7) 8) 9) 10) 11) 12) 13) 14) 15)) ∧
    (process e).s.env.caps.activity = s.env.caps.activity ∧
    (e.topChanged = false → closeEvent e = s) ∧
    (e.topChanged = true → let u := closeEvent e
      u.env.caps.activity = (match s.top with
        | .idle => s.tables.home.capIdle | .mow => s.tables.home.capMow | .follow => s.tables.home.capFollow
        | .escape => s.tables.home.capEscape | .docked | .halt => 0) ∧
      u.env.k = u.env.caps.effective ∧ u.act.epoch = s.act.epoch ∧
      (s.top ≠ .escape → u.env.req = { s.env.req with left := 0, right := 0 })) ∧
    (let p := pendingReturnStep e;
      (s.act.pendingReturn = false → p = e) ∧ (s.top = .escape ∨ s.top = .halt → p = e) ∧
      (s.act.pendingReturn = true → s.top = .idle ∨ s.top = .follow ∨ s.top = .docked →
        p = { e with s := s.setAct { s.act with pendingReturn := false } }) ∧
      (s.act.pendingReturn = true → s.top = .mow → p.bumped = true ∧ p.topChanged = true ∧
        p.s.act = { s.act with
          stack := { k with home := some (.follow ⟨true, epoch, s.tables.home.perimeter, .seek, 0, false, 0⟩) }
          epoch := epoch, bladeEnable := false, pendingReturn := false } ∧
        p.s.home = { s.home with remainder := 0 } ∧ p.s.gate = s.gate ∧ p.s.haz.sources = s.haz.sources ∧ SameConfig s p.s)) ∧
    (∀ i : Fin 16, let o := owedStep e i
      let r := s.haz.sources[i]
      let m := s.tables.hazard[i].manoeuvre
      let cleared := { e with s := setSource i { r with owed := false } s }
      (r.owed = false → o = e) ∧ (r.owed = true → r.state ≠ .raised → o = cleared) ∧
      (r.owed = true → r.state = .raised → s.tables.counts[m] ≠ 0 →
        (s.top = .halt → o = e) ∧ (s.top = .docked → o = cleared) ∧
        (s.top = .idle → o.s.act = s.act ∧ o.s.env.req = { s.env.req with left := 0, right := 0 } ∧
          o.s.haz = cleared.s.haz ∧ o.topChanged = e.topChanged ∧ o.bumped = e.bumped) ∧
        (s.top = .mow ∨ s.top = .follow → o.bumped = true ∧ o.topChanged = true ∧
          o.s.act = { s.act with stack := { k with esc := some ⟨.source i, epoch, m, 0, 0, 0, 0⟩ }, epoch := epoch } ∧
          o.s.haz.sources = cleared.s.haz.sources) ∧
        ∀ x, s.top = .escape → k.esc = some x → let masked := (s.tables.step x.man x.step).mask.getLsbD i.val
          (masked = false → o = e) ∧
          (masked = true → x.chain + 1 < s.tables.home.chainLimit → o.bumped = true ∧ o.topChanged = true ∧
            o.s.act = { s.act with
              stack := { k with esc := some ⟨.source i, epoch, m, 0, 0, 0, x.chain + 1⟩ }, epoch := epoch } ∧
            o.s.haz.sources = cleared.s.haz.sources) ∧
          (masked = true → s.tables.home.chainLimit ≤ x.chain + 1 → o.bumped = true ∧ o.topChanged = true ∧
            o.s.act = halting { k with esc := none } (.source srcTrapped) ∧ o.s.haz.sources[srcTrapped].cond = true ∧
            o.s.haz.sources[i].owed = false)) ∧
      (r.owed = true → r.state = .raised → s.tables.counts[m] = 0 → o.s.haz.sources = cleared.s.haz.sources ∧
        (k.halt = none → o.bumped = true ∧ o.topChanged = true ∧ o.s.act = halting k (.source i)) ∧
        ∀ x, k.halt = some x → o.bumped = e.bumped ∧ o.topChanged = e.topChanged ∧
          o.s.act = { s.act with stack := { k with halt := some { x with causes := x.causes.add (.source i) } } })) ∧
    (s.gate.deferred = none → regate e = e) ∧
    ∀ d, s.gate.deferred = some d →
      let idx := d.order.row.val * 6 + s.top.code
      let c := s.tables.cell d.order.row s.top
      let empty := s.setGate { s.gate with deferred := none }
      let refused := fun (x : Code) (cls : Nat) (kind : Nat) (o : Nat) =>
        regate e = { e with s := enterRefusal x cls (BitVec.ofNat 8 kind) o empty }
      (d.order.row.val < 6 →
        (c.present = false → refused .absent 5 (d.order.row.val + 1) idx) ∧
        (c.present = true → c.rankLimit < d.rank → refused .rank 5 (d.order.row.val + 1) idx) ∧
        (c.present = true → d.rank ≤ c.rankLimit → refused .stale 5 (d.order.row.val + 1) 2)) ∧
      (6 ≤ d.order.row.val →
        (c.present = false → refused .absent 7 (d.order.row.val - 1) idx) ∧
        (c.present = true → c.rankLimit < d.rank → refused .rank 7 (d.order.row.val - 1) idx) ∧
        (c.present = true → d.rank ≤ c.rankLimit → c.disp = .refuse → refused .gated 7 (d.order.row.val - 1) idx) ∧
        (c.present = true → d.rank ≤ c.rankLimit → c.disp = .defer → regate e = e) ∧
        (c.present = true → d.rank ≤ c.rankLimit → c.disp = .take →
          (∀ x o, applyOrder d.order e = .error (x, o) → refused x 7 (d.order.row.val - 1) o) ∧
          ∀ e1, applyOrder d.order e = .ok e1 → regate e = { e1 with s := e1.s.setGate { e1.s.gate with deferred := none } }))

/-- R154, R155: the first refusal fills the record and makes REFUSAL pending; a further one only raises the count, which stays at 255. -/
def Obligations.RefusalRecordKeepsTheFirst : Prop :=
  ∀ (c : Code) (cls : Nat) (kind : Byte) (detail : Nat) (s : State), let t := enterRefusal c cls kind detail s
    (s.gate.refusal = none → t.gate.refusal = some ⟨c, cls, kind, detail, 0⟩ ∧ t.haz.pending = s.haz.pending ||| BitVec.twoPow 20 17) ∧
    (∀ r, s.gate.refusal = some r → t.haz = s.haz ∧
      t.gate.refusal = some { r with further := if r.further < 255 then r.further + 1 else r.further }) ∧
    t.gate.deferred = s.gate.deferred ∧ t.act = s.act ∧ t.env = s.env ∧ t.dp = s.dp ∧ t.port = s.port ∧ t.tables = s.tables

/-! ### Frames -/

/-- R180, R181: a damaged run leaves no trace. R182: a frame of an undefined class is refused with UNDEFINED, its class and kind 0 on CP and
discarded on SP and DP. R182, R185, R191: a frame of a defined class without a user goes through the intake table: a copy joins the mirror queue of
eight when its entry says so, except from CP, and no block sees it; so does every frame whose entry says MIRROR or DISCARD, or that no entry
matches, and a class 7 frame for another node than the WN610 (R186). R166: while the WN610 drives DP nothing is received there, but for the reply
that came together with the expiry of its wait (the model's choice, log entry 41). R186: a request for the WN610 that finds all four reply places in
use is discarded, accepted for liveness alone. R3, R89 to R92, R85: a sample of a wrong length or from an address that is no present node's is
discarded by its user, and R167: so is a status of a wrong length, which ends no wait, and a status of an address that no mapped drive holds, which
ends the wait for that address and no other. R95, R188: what the acceptance of a frame on CP does, before its contents are used (`acceptCp`): the
liveness timer starts again with the period of the table, and the condition of LINK-SILENT becomes false, its source going to HELD or QUIET; where it
was false already, nothing but the timer changes. -/
def Obligations.FramesThatNoBlockTakesIn : Prop :=
  (∀ s : State, let u := acceptCp s
    let v := s.setPort { s.port with liveness := some s.tables.timing.liveness }
    let r := s.haz.sources[srcLinkSilent]
    let hold := s.tables.hazard[srcLinkSilent].hold
    u = setCondition srcLinkSilent false v ∧ u.port = v.port ∧ u.haz.sources[srcLinkSilent].cond = false ∧
      (r.cond = false → u = v) ∧
      (r.cond = true → s.tables.hazard[srcLinkSilent].enabled = true → r.state = .raised →
        u.haz.sources[srcLinkSilent] = { r with
          cond := false, state := if hold = 0 then .quiet else .held, hold := if hold = 0 then none else some hold } ∧
        u.haz.pending = s.haz.pending ||| BitVec.twoPow 20 10) ∧
      (∀ j : Fin 16, j ≠ srcLinkSilent → u.haz.sources[j] = s.haz.sources[j]) ∧ u.act = s.act ∧ u.exe = s.exe ∧ u.home = s.home ∧
      u.gate = s.gate ∧ u.env.req = s.env.req ∧ u.reports = s.reports ∧ SameConfig s u) ∧
  (∀ s : State,
    (∀ p run, (Instr.damagedFrame p run).wellFormed = true → exec (.damagedFrame p run) s = .next (takeToken s)) ∧
    ∀ p cls h payload, s.isReady = true → (Instr.undefinedClassFrame p cls h payload).wellFormed = true →
      (p ≠ .cp → exec (.undefinedClassFrame p cls h payload) s = .next (takeToken s)) ∧
      (p = .cp → exec (.undefinedClassFrame p cls h payload) s =
        .next (takeToken (enterRefusal .undefined cls.toNat 0 0 (acceptCp s))))) ∧
  (∀ (p : Port) (cls : BitVec 4) (h : Header) (payload : List Byte) (s : State), s.isReady = true →
    (Instr.frameWithoutUser p cls h payload).wellFormed = true → receives p s = true → (p = .cp → cls ≠ 5#4) →
    let a := s.tables.intakeAction p (cls ++ h.node)
    (p = .cp → exec (.frameWithoutUser p cls h payload) s = .next (takeToken (acceptCp s))) ∧
    (p ≠ .cp → (a = some .useMirror ∨ a = some .mirror) →
      exec (.frameWithoutUser p cls h payload) s = .next (takeToken (s.setPort { s.port with
        mirrors := (if s.port.mirrors.length < 8 then s.port.mirrors else s.port.mirrors.drop 1) ++
          [frameBytes cls h payload] }))) ∧
    (p ≠ .cp → a ≠ some .useMirror → a ≠ some .mirror →
      exec (.frameWithoutUser p cls h payload) s = .next (takeToken s))) ∧
  (∀ (i : Instr) (p : Port) (f : Frame) (s : State), i.frame? = some (p, f) → f.payload.length ≤ 24 → s.isReady = true →
    let raced := f.cls = 6#4 ∧ s.dp.raced = some f.h.node
    let a := s.tables.intakeAction p (f.cls ++ f.h.node)
    (p = .dp → receives .dp s = false → ¬raced → exec i s = .next (takeToken s)) ∧
    (p = .cp → f.cls = 7#4 → f.h.node ≠ 0x01#8 → exec i s = .next (takeToken (acceptCp s))) ∧
    (p = .cp → f.cls = 7#4 → f.h.node = 0x01#8 → 4 ≤ placesUsed s → exec i s = .next (takeToken (acceptCp s))) ∧
    (f.cls.toNat ≤ 9 → a ≠ some .use → a ≠ some .useMirror →
      (p = .cp → f.cls ≠ 7#4 → exec i s = .next (takeToken (acceptCp s))) ∧
      (p ≠ .cp → a ≠ some .mirror → exec i s = .next (takeToken s)) ∧
      (p ≠ .cp → a = some .mirror → receives p s = true ∨ raced → exec i s = .next (takeToken (s.setPort { s.port with
        mirrors := (if s.port.mirrors.length < 8 then s.port.mirrors else s.port.mirrors.drop 1) ++
          [frameBytes f.cls f.h f.payload] }))))) ∧
  ∀ (h : Header) (payload : List Byte) (s : State), payload.length ≤ 24 →
    let copied := fun (p : Port) (cls : BitVec 4) (v : State) =>
      (.next (takeToken (v.setPort (mirrored p cls h payload s))) : Host.Outcome State Fault Refusal)
    let absent := fun (n : SensorNode) => n.present = false ∨ n.node ≠ h.node
    (SpTaken 0 h s → s.tables.coilAt h.node = none ∨ payload.length ≠ 17 → exec (.coilSample h payload) s = copied .sp 0 s) ∧
    (SpTaken 1 h s → absent s.tables.sensor.incline ∨ payload.length ≠ 6 → exec (.inclineSample h payload) s = copied .sp 1 s) ∧
    (SpTaken 2 h s → absent s.tables.sensor.contact ∨ payload.length ≠ 1 → exec (.contactSample h payload) s = copied .sp 2 s) ∧
    (SpTaken 3 h s → absent s.tables.sensor.power ∨ payload.length ≠ 9 → exec (.powerSample h payload) s = copied .sp 3 s) ∧
    (SpTaken 4 h s → absent s.tables.sensor.rain ∨ payload.length ≠ 1 → exec (.rainSample h payload) s = copied .sp 4 s) ∧
    (Taken .dp 6 h s → receives .dp s = true ∨ s.dp.raced = some h.node →
      (payload.length ≠ 7 → exec (.driveStatus h payload) s = copied .dp 6 s) ∧
      (payload.length = 7 → s.tables.driveAt h.node = none →
        ((∀ f, s.dp.cycle = .awaitReply f → f.address ≠ h.node) → exec (.driveStatus h payload) s = copied .dp 6 s) ∧
        ∀ f, s.dp.cycle = .awaitReply f → f.address = h.node →
          exec (.driveStatus h payload) s = copied .dp 6 (s.setDp { s.dp with cycle := .idle, replyTimer := none })))

/-- R3, R11 to R16, R18, R20, R32, R85, R185: a COIL-SAMPLE of a present coil makes its node FRESH; a duplicate moves nothing else, and any other
frame moves the intake record, every enabled loop's tracker and the coil's cell of that loop, makes the LOOP notice pending when a loop has
locked, and ends with one re-evaluation of the outputs. -/
def Obligations.CoilSampleIsDecoded : Prop :=
  ∀ (h : Header) (seq : Byte) (chips : List Byte) (c : Fin 4) (s : State), SpTaken 0 h s →
    s.tables.coilAt h.node = some c → chips.length = 16 →
    ∃ t, exec (.coilSample h (seq :: chips)) s = .next t ∧
      t.haz.nodes[coilNode c] = some ⟨.fresh, some (3 * s.tables.coil[c].period)⟩ ∧
      t.tables = s.tables ∧ t.mgmt = s.mgmt ∧ t.pins = s.pins ∧ t.port = mirrored .sp 0 h (seq :: chips) s ∧
      t.pending = s.pending ∧
      (s.dec.intakes[c].lastSeq = some seq → t.dec.trackers = s.dec.trackers ∧ t.dec.cells = s.dec.cells ∧
        t.dec.intakes[c] = { s.dec.intakes[c] with awaiting := false }) ∧
      (s.dec.intakes[c].lastSeq = none → t.dec.intakes[c] = ⟨some seq, s.dec.intakes[c].missed, false⟩) ∧
      (∀ last, s.dec.intakes[c].lastSeq = some last → last ≠ seq →
        t.dec.intakes[c] = ⟨some seq, min 65535 (s.dec.intakes[c].missed + ((seq - last).toNat - 1)), false⟩) ∧
      (s.dec.intakes[c].lastSeq ≠ some seq → ∃ v, t = takeToken (reevaluate v) ∧ v.tables = s.tables ∧
        v.dec = { t.dec with n := s.dec.n, outside := s.dec.outside, wireLost := s.dec.wireLost } ∧
        v.haz.nodes = t.haz.nodes ∧ (nodeSilent s.haz (coilNode c) = false → v.haz.sources = s.haz.sources)) ∧
      (s.dec.intakes[c].lastSeq ≠ some seq →
        (∃ l : Fin 8, s.dec.trackers[l].state = .search ∧ t.dec.trackers[l].state = .locked) → t.haz.pending.getLsbD 18 = true) ∧
      (s.dec.intakes[c].lastSeq ≠ some seq → ∀ l : Fin 8,
        let gap := match s.dec.intakes[c].lastSeq with
          | none => false
          | some last => decide (2 ≤ (seq - last).toNat)
        let entry := s.tables.loop[l]
        let x := trackerStep entry (entry.refCoil = c) gap (chips.map s8) s.dec.trackers[l]
        (∀ c' : Fin 4, c' ≠ c → t.dec.cell l c' = s.dec.cell l c') ∧
        if entry.enabled then
          t.dec.trackers[l] = x.1 ∧ t.dec.cell l c = match x.2 with
            | none => s.dec.cell l c
            | some con =>
              updateCell s.tables entry s.tables.coil[c].gain (saturated (chips.map s8)) con (s.dec.cell l c)
        else t.dec.trackers[l] = s.dec.trackers[l] ∧ t.dec.cell l c = s.dec.cell l c)

/-- R36, R85, R90, R110, R185: an INCLINE-SAMPLE is kept, its pitch and roll are brought into ±900 for the slope, its node is FRESH, the slope cap
is that of the band of the larger of the two, also at the return of a SILENT node (R36, R87), TILT is true at or above the tilt limit, false below
the limit − 20, else as it was, and its heading reaches the executor. TILT moves its source and fires its response as `setCondition` says (R77,
R79). That the kept sample holds pitch and roll as sent is the model's choice (log entry 39), and so is that TILT comes before the heading (log entry
38); that SENSOR-SILENT is formed at the arrival, before the contents, is read from R85 and R87 (log entry 24). -/
def Obligations.InclineSampleFormsTilt : Prop :=
  ∀ (h : Header) (p0 p1 r0 r1 h0 h1 : Byte) (s : State), SpTaken 1 h s → s.tables.sensor.incline.present = true →
    s.tables.sensor.incline.node = h.node →
    let pitch := max (-900) (min 900 (s16 p0 p1))
    let roll := max (-900) (min 900 (s16 r0 r1))
    let slope := max pitch.natAbs roll.natAbs
    ∃ t, exec (.inclineSample h [p0, p1, r0, r1, h0, h1]) s = .next t ∧
      t.haz.kept = { s.haz.kept with incline := ⟨s16 p0 p1, s16 r0 r1, u16 h0 h1⟩, inclineTaken := true } ∧
      t.env.pitch = pitch ∧ t.env.roll = roll ∧ Banded s.tables 1 slope t.env.caps.slope ∧
      t.haz.nodes[(4 : Fin 8)] = some ⟨.fresh, some (3 * s.tables.sensor.incline.period)⟩ ∧
      (s.tables.sensor.tilt ≤ slope → t.haz.sources[srcTilt].cond = true) ∧
      (slope + 20 < s.tables.sensor.tilt → t.haz.sources[srcTilt].cond = false) ∧
      (slope < s.tables.sensor.tilt → s.tables.sensor.tilt ≤ slope + 20 →
        t.haz.sources[srcTilt].cond = s.haz.sources[srcTilt].cond) ∧
      (let v := refresh (arrived 4 s.tables.sensor.incline.period
          (((s.setPort (mirrored .sp 1 h [p0, p1, r0, r1, h0, h1] s)).setHaz { s.haz with kept := t.haz.kept }).setEnv
            { s.env with pitch := pitch, roll := roll }))
        let tilt := if s.tables.sensor.tilt ≤ slope then true else if slope + 20 < s.tables.sensor.tilt then false
          else s.haz.sources[srcTilt].cond
        t = takeToken (headingToEscape (u16 h0 h1) (setCondition srcTilt tilt v))) ∧
      (∃ v, t = takeToken (headingToEscape (u16 h0 h1) v) ∧ v.tables = s.tables ∧
        (nodeSilent s.haz 4 = false → t.haz.sources[srcTilt].cond = s.haz.sources[srcTilt].cond →
          v.act = s.act ∧ v.exe = s.exe ∧ v.env.req = s.env.req ∧ v.reports = s.reports)) ∧
      SameConfig s t ∧ t.port = mirrored .sp 1 h [p0, p1, r0, r1, h0, h1] s

/-- R85, R87, R89, R92: a CONTACT-SAMPLE forms LIFT from bits 2 and 3, BUMP-LEFT from bit 0 and BUMP-RIGHT from bit 1, in this order; a RAIN-SAMPLE
forms RAIN with 20 below the rain level as its way back. Each moves its source and fires its response as `setCondition` says (R77, R79), and nothing
else happens. That the kept contact byte holds bits 4 to 7 as received is the model's choice (log entry 45); that SENSOR-SILENT is formed at the
arrival, before the contents, is read from R85 and R87 (log entry 24). That each response of one sample is an event of its own at the activity unit,
so that a sample that raises two sources may advance the epoch twice, is the model's reading of R52, R77, R79 and R89 (log entry 17). -/
def Obligations.ContactAndRainSamplesFormTheirConditions : Prop :=
  ∀ (h : Header) (b : Byte) (s : State),
    (SpTaken 2 h s → s.tables.sensor.contact.present = true → s.tables.sensor.contact.node = h.node →
      ∃ t, exec (.contactSample h [b]) s = .next t ∧
        t.haz.kept = { s.haz.kept with contact := b, contactTaken := true } ∧
        t.haz.nodes[(5 : Fin 8)] = some ⟨.fresh, some (3 * s.tables.sensor.contact.period)⟩ ∧
        t.haz.sources[srcLift].cond = (b.getLsbD 2 || b.getLsbD 3) ∧
        t.haz.sources[srcBumpLeft].cond = b.getLsbD 0 ∧ t.haz.sources[srcBumpRight].cond = b.getLsbD 1 ∧
        (let v := arrived 5 s.tables.sensor.contact.period
            ((s.setPort (mirrored .sp 2 h [b] s)).setHaz { s.haz with kept := t.haz.kept });
          t = takeToken (setCondition srcBumpRight (b.getLsbD 1) (setCondition srcBumpLeft (b.getLsbD 0)
            (setCondition srcLift (b.getLsbD 2 || b.getLsbD 3) v)))) ∧
        SameConfig s t ∧ t.port = mirrored .sp 2 h [b] s) ∧
    (SpTaken 4 h s → s.tables.sensor.rain.present = true → s.tables.sensor.rain.node = h.node →
      ∃ t, exec (.rainSample h [b]) s = .next t ∧
        t.haz.kept = { s.haz.kept with wetness := b.toNat, wetnessTaken := true } ∧
        t.haz.nodes[(7 : Fin 8)] = some ⟨.fresh, some (3 * s.tables.sensor.rain.period)⟩ ∧
        (s.tables.sensor.rainLevel ≤ b.toNat → t.haz.sources[srcRain].cond = true) ∧
        (b.toNat + 20 < s.tables.sensor.rainLevel → t.haz.sources[srcRain].cond = false) ∧
        (b.toNat < s.tables.sensor.rainLevel → s.tables.sensor.rainLevel ≤ b.toNat + 20 →
          t.haz.sources[srcRain].cond = s.haz.sources[srcRain].cond) ∧
        (let v := arrived 7 s.tables.sensor.rain.period
            ((s.setPort (mirrored .sp 4 h [b] s)).setHaz { s.haz with kept := t.haz.kept })
          let rain := if s.tables.sensor.rainLevel ≤ b.toNat then true else if b.toNat + 20 < s.tables.sensor.rainLevel then false
            else s.haz.sources[srcRain].cond
          t = takeToken (setCondition srcRain rain v)) ∧ SameConfig s t ∧ t.port = mirrored .sp 4 h [b] s)

/-- R91, R122, R128, R185: a POWER-SAMPLE is kept with its percent held at 100, BATTERY-LOW is true exactly while that percent is below the return
level and no DOCKED record stands, and the sample reaches the homing unit. BATTERY-LOW moves its source and fires its response as `setCondition` says
(R77, R79). That BATTERY-LOW comes before the homing unit is the model's choice (log entry 38); that SENSOR-SILENT is formed at the arrival, before
the contents, is read from R85 and R87 (log entry 24). -/
def Obligations.PowerSampleFormsBatteryLow : Prop :=
  ∀ (h : Header) (pct b0 b1 d0 d1 c0 c1 tmp flag : Byte) (s : State), SpTaken 3 h s →
    s.tables.sensor.power.present = true → s.tables.sensor.power.node = h.node →
    ∃ t, exec (.powerSample h [pct, b0, b1, d0, d1, c0, c1, tmp, flag]) s = .next t ∧
      t.haz.kept = { s.haz.kept with
        power := ⟨min 100 pct.toNat, u16 b0 b1, u16 d0 d1, s16 c0 c1, s8 tmp, flag ≠ 0⟩, powerTaken := true } ∧
      t.haz.nodes[(6 : Fin 8)] = some ⟨.fresh, some (3 * s.tables.sensor.power.period)⟩ ∧
      t.haz.sources[srcBatteryLow].cond =
        (decide (min 100 pct.toNat < s.tables.sensor.returnLevel) && t.act.stack.docked?.isNone) ∧
      (let v := arrived 6 s.tables.sensor.power.period
          ((s.setPort (mirrored .sp 3 h [pct, b0, b1, d0, d1, c0, c1, tmp, flag] s)).setHaz { s.haz with kept := t.haz.kept });
        t = takeToken (powerToHoming t.haz.kept.power (setCondition srcBatteryLow
          (decide (min 100 pct.toNat < s.tables.sensor.returnLevel) && v.act.stack.docked?.isNone) v))) ∧
      (∃ v, t = takeToken (powerToHoming t.haz.kept.power v) ∧ v.tables = s.tables ∧ v.haz.kept = t.haz.kept ∧
        (nodeSilent s.haz 6 = false → (s.haz.sources[srcBatteryLow].cond =
            (decide (min 100 pct.toNat < s.tables.sensor.returnLevel) && s.act.stack.docked?.isNone)) →
          v.act = s.act ∧ v.home = s.home ∧ v.env = s.env ∧ v.gate = s.gate ∧ v.haz.sources = s.haz.sources)) ∧
      SameConfig s t ∧ t.port = mirrored .sp 3 h [pct, b0, b1, d0, d1, c0, c1, tmp, flag] s

/-- R162, R166 to R169, R172 to R175, R185: a DRIVE-STATUS of a mapped drive clears its misses, sets its state from the fault byte, hands the whole
millimetres of its odometry to the executor and the homing unit, leaves the rest, moves the stall or overload run and hands a blade's load percent
on; the addressed node's reply ends the wait, a late one leaves the cycle. A reply of a node whose wait the command just before it has ended is
taken in though the next frame goes out: it came together with the expiry (the model's choice, log entry 41). The drive is the one that holds the
address now (log entry 46, a choice where a write has moved the one in flight), and changed drive conditions go in the order of log entry 47. R93,
R172, R174 to R176: forming the drive conditions leaves the four flags at what the node records and the mapping give, and the conditions of STALL-
LEFT, STALL-RIGHT, BLADE-OVERLOAD and DRIVE-FAULT at the flags that changed; nothing happens without a change, and a single change is handed over
alone. That the responses of several changes are events of their own, each with its own advance of the epoch, is the model's reading (log entry
17). -/
def Obligations.DriveStatusIsTakenIn : Prop :=
  (∀ s : State, let u := formDriveConditions s
    let same := fun (l r o f : Bool) => l = s.dp.stallLeft ∧ r = s.dp.stallRight ∧ o = s.dp.overload ∧ f = s.dp.fault
    DriveConditionsFormed s u ∧ SameConfig s u ∧ u.port = s.port ∧
    u.dp = { s.dp with
      stallLeft := u.dp.stallLeft, stallRight := u.dp.stallRight, overload := u.dp.overload, fault := u.dp.fault
      queue := u.dp.queue } ∧
    (same u.dp.stallLeft u.dp.stallRight u.dp.overload u.dp.fault → u = s) ∧
    (same (!u.dp.stallLeft) u.dp.stallRight u.dp.overload u.dp.fault →
      u = setCondition srcStallLeft u.dp.stallLeft (s.setDp { s.dp with stallLeft := u.dp.stallLeft })) ∧
    (same u.dp.stallLeft (!u.dp.stallRight) u.dp.overload u.dp.fault →
      u = setCondition srcStallRight u.dp.stallRight (s.setDp { s.dp with stallRight := u.dp.stallRight })) ∧
    (same u.dp.stallLeft u.dp.stallRight (!u.dp.overload) u.dp.fault →
      u = setCondition srcOverload u.dp.overload (s.setDp { s.dp with overload := u.dp.overload })) ∧
    (same u.dp.stallLeft u.dp.stallRight u.dp.overload (!u.dp.fault) →
      u = setCondition srcDriveFault u.dp.fault (s.setDp { s.dp with fault := u.dp.fault }))) ∧
  ∀ (h : Header) (t0 t1 c0 c1 v0 v1 fault : Byte) (d : Drive) (s : State), Taken .dp 6 h s →
    receives .dp s = true ∨ s.dp.raced = some h.node → s.tables.driveAt h.node = some d →
    let percent := min 1000 (u16 c0 c1 * 100 / (s.tables.driveOf d).nominal)
    let sum := (s.dp.recOf d).acc + s16 t0 t1 * (s.tables.driveOf d).scale
    ∃ t, exec (.driveStatus h [t0, t1, c0, c1, v0, v1, fault]) s = .next t ∧
      (t.dp.recOf d).state = (if fault = 0 then .active else .faulted) ∧ (t.dp.recOf d).miss = 0 ∧
      (t.dp.recOf d).status = ⟨s16 t0 t1, u16 c0 c1, s16 v0 v1, fault⟩ ∧ (t.dp.recOf d).taken = true ∧
      (∀ d', d' ≠ d → t.dp.recOf d' = s.dp.recOf d') ∧
      (∀ w, d = .wheel w →
        (t.dp.recOf d).acc = sum.tmod 1000 ∧
        (t.dp.recOf d).stallRun =
          if (s.tables.driveOf d).stall ≤ u16 c0 c1 ∧ (s16 v0 v1).natAbs < 50 ∧ 100 ≤ (s.env.held.wheel w).natAbs then
            min 4 ((s.dp.recOf d).stallRun + 1) else 0) ∧
      (∀ b, d = .blade b → t.env.percents.get b = percent ∧ (t.dp.recOf d).overRun =
        if s.tables.sensor.overload ≤ percent then min 4 ((s.dp.recOf d).overRun + 1) else 0) ∧
      (∃ v, t = takeToken (formDriveConditions (match d with
          | .wheel _ => odometryToHoming (sum.tdiv 1000) (odometryToEscape (sum.tdiv 1000) v)
          | .blade b => takePercent b percent v
          | .deck => v)) ∧
        v.act = s.act ∧ v.exe = s.exe ∧ v.home = s.home ∧ v.env = s.env ∧ v.haz = s.haz ∧ v.gate = s.gate ∧ v.reports = s.reports ∧
        v.dp.records = t.dp.records ∧ v.dp.queue = s.dp.queue ∧ SameConfig s v) ∧ DriveConditionsFormed s t ∧
      (∀ f, s.dp.cycle = .awaitReply f → f.address = h.node → t.dp.replyTimer = none ∧ ∀ g, t.dp.cycle ≠ .awaitReply g) ∧
      (∀ f, s.dp.cycle = .awaitReply f → f.address ≠ h.node →
        t.dp.cycle = s.dp.cycle ∧ t.dp.replyTimer = s.dp.replyTimer) ∧
      (∀ f, s.dp.cycle = .sending f → t.dp.cycle = s.dp.cycle ∧ t.dp.replyTimer = s.dp.replyTimer) ∧
      SameConfig s t ∧ t.port = mirrored .dp 6 h [t0, t1, c0, c1, v0, v1, fault] s

/-! ### Drive commands -/

/-- R42, R45, R46, R151: a WHEEL-SPEED that the gate takes sets the requested pair, each speed brought into ±1000 and the wheel's maximum; the
held pair is that pair under K, and a held speed that changed has its token queued. -/
def Obligations.WheelSpeedSetsTheRequestedPair : Prop :=
  ∀ (h : Header) (l0 l1 r0 r1 : Byte) (s : State), CpTaken 5 h s → CellTakes 0 h s → h.epoch = s.act.epoch →
    s.tables.mapped (.wheel .left) = true → s.tables.mapped (.wheel .right) = true →
    let ml : Int := (s.tables.driveOf (.wheel .left)).maximum
    let mr : Int := (s.tables.driveOf (.wheel .right)).maximum
    let l := max (-ml) (min ml (max (-1000) (min 1000 (s16 l0 l1))))
    let r := max (-mr) (min mr (max (-1000) (min 1000 (s16 r0 r1))))
    ∃ u, exec (.wheelSpeed h [l0, l1, r0, r1]) s = .next (takeToken u) ∧
      u.env.req = { s.env.req with left := l, right := r } ∧
      (u.env.held.left, u.env.held.right) = scaleWheels l r u.env.k ∧ u.env.k = u.env.caps.effective ∧
      (u.env.held.left ≠ s.env.held.left → .wheelSpeed .left ∈ u.dp.queue) ∧
      (u.env.held.right ≠ s.env.held.right → .wheelSpeed .right ∈ u.dp.queue) ∧ ChangedQueued s u ∧
      SameConfig s u ∧ u.act = s.act ∧ u.gate = s.gate ∧ u.exe = s.exe ∧ u.home = s.home ∧ u.reports = s.reports ∧
      u.dp.records = s.dp.records ∧ u.dp.cycle = s.dp.cycle ∧ u.haz = (acceptCp s).haz ∧ u.port = (acceptCp s).port

/-- R43, R44, R46, R151: a BLADE-SPEED sets the requested rpm of the blade named or of all three, held at 4000; a DECK-HEIGHT sets the requested
height within 20 to 100 and holds it. R45: each mapped drive whose held value changed has its token queued, SPEED for a blade, HEIGHT for the deck. -/
def Obligations.BladeSpeedAndDeckHeightSetTheirRequests : Prop :=
  ∀ (h : Header) (sel r0 r1 mm : Byte) (s : State), CpTaken 5 h s → h.epoch = s.act.epoch →
    (CellTakes 1 h s → sel.toNat ≤ 3 → (∀ b, bladeOf sel.toNat = some b → s.tables.mapped (.blade b) = true) →
      (sel = 3 → s.tables.anyBlade = true) →
      ∃ u, exec (.bladeSpeed h [sel, r0, r1]) s = .next (takeToken u) ∧
        (∀ b : Blade, u.env.req.blades.get b =
          if b.idx.val = sel.toNat ∨ sel = 3 then min 4000 (u16 r0 r1) else s.env.req.blades.get b) ∧
        (∀ b : Blade, u.env.held.blades.get b =
          if s.act.bladeEnable then min (u.env.req.blades.get b) (s.tables.driveOf (.blade b)).maximum else 0) ∧
        (∀ b : Blade, s.tables.mapped (.blade b) = true → u.env.held.blades.get b ≠ s.env.held.blades.get b →
          .bladeSpeed b ∈ u.dp.queue) ∧ ChangedQueued s u ∧
        u.env.req.left = s.env.req.left ∧ u.env.req.right = s.env.req.right ∧ u.env.req.deck = s.env.req.deck ∧
        SameConfig s u ∧ u.act = s.act ∧ u.gate = s.gate ∧ u.exe = s.exe ∧ u.home = s.home ∧ u.reports = s.reports ∧
        u.dp.records = s.dp.records ∧ u.haz = (acceptCp s).haz ∧ u.port = (acceptCp s).port) ∧
    (CellTakes 4 h s → s.tables.mapped .deck = true →
      ∃ u, exec (.deckHeight h [mm]) s = .next (takeToken u) ∧
        u.env.req = { s.env.req with deck := max 20 (min 100 mm.toNat) } ∧ u.env.held.deck = max 20 (min 100 mm.toNat) ∧
        (u.env.held.deck ≠ s.env.held.deck → .height ∈ u.dp.queue) ∧ ChangedQueued s u ∧
        SameConfig s u ∧ u.act = s.act ∧ u.gate = s.gate ∧ u.exe = s.exe ∧ u.home = s.home ∧ u.reports = s.reports ∧
        u.dp.records = s.dp.records ∧ u.haz = (acceptCp s).haz ∧ u.port = (acceptCp s).port)

/-- R43, R45, R55, R149, R152: a BLADE-START that meets the interlock sets blade-enable, holds each blade at its request within its maximum and
queues START for each mapped blade, and SPEED for each whose held rpm changed; one that fails it is refused with INTERLOCK; a BLADE-STOP clears
blade-enable, holds every blade at 0 and queues STOP for each mapped blade, and SPEED for each whose held rpm changed. Where blade-enable stood as the
order asks no derivation follows: the held rpm is then said for an envelope that is sound. The detail 0 of INTERLOCK is the
model's reading (log entry 26). -/
def Obligations.BladeStartAndStopSwitchTheBlades : Prop :=
  ∀ (h : Header) (s : State), CpTaken 5 h s → h.epoch = s.act.epoch →
    (CellTakes 2 h s → s.tables.anyBlade = true → bladesClear s = true →
      ∃ u, exec (.bladeStart h []) s = .next (takeToken u) ∧ u.act = { s.act with bladeEnable := true } ∧
        (∀ b, s.tables.mapped (.blade b) = true → .bladeStart b ∈ u.dp.queue) ∧ u.env.req = s.env.req ∧
        ((s.act.bladeEnable = true → EnvelopeSound s) → ∀ b : Blade,
          u.env.held.blades.get b = min (s.env.req.blades.get b) (s.tables.driveOf (.blade b)).maximum) ∧
        (∀ b : Blade, s.tables.mapped (.blade b) = true → u.env.held.blades.get b ≠ s.env.held.blades.get b →
          .bladeSpeed b ∈ u.dp.queue) ∧ ChangedQueued s u ∧
        SameConfig s u ∧ u.gate = s.gate ∧ u.exe = s.exe ∧ u.home = s.home ∧ u.reports = s.reports ∧
        u.dp.records = s.dp.records ∧ u.haz = (acceptCp s).haz ∧ u.port = (acceptCp s).port) ∧
    (CellTakes 2 h s → s.tables.anyBlade = true → bladesClear s = false →
      exec (.bladeStart h []) s = .next (takeToken (enterRefusal .interlock 5 3 0 (acceptCp s)))) ∧
    (CellTakes 3 h s →
      ∃ u, exec (.bladeStop h []) s = .next (takeToken u) ∧ u.act = { s.act with bladeEnable := false } ∧
        ((s.act.bladeEnable = false → s.env.held.blades = ⟨0, 0, 0⟩) → u.env.held.blades = ⟨0, 0, 0⟩) ∧
        (∀ b, s.tables.mapped (.blade b) = true → .bladeStop b ∈ u.dp.queue) ∧
        (∀ b : Blade, s.tables.mapped (.blade b) = true → u.env.held.blades.get b ≠ s.env.held.blades.get b →
          .bladeSpeed b ∈ u.dp.queue) ∧ ChangedQueued s u ∧
        u.env.req = s.env.req ∧ SameConfig s u ∧ u.gate = s.gate ∧ u.exe = s.exe ∧ u.home = s.home ∧
        u.reports = s.reports ∧ u.dp.records = s.dp.records ∧ u.haz = (acceptCp s).haz ∧ u.port = (acceptCp s).port)

/-- R46, R149, R152: a BRAKE of a wheel under IDLE or MOW zeroes that wheel's request and queues its BRAKE, a BRAKE of a blade zeroes its rpm and
queues its STOP, a BRAKE of the deck changes no request; a wheel's BRAKE under any other top is refused with STATE. R42 to R45: the held values follow
the request, and each mapped drive whose held value changed has its SPEED token queued. -/
def Obligations.BrakeStopsTheNamedDrive : Prop :=
  ∀ (h : Header) (n : Byte) (d : Drive) (s : State), CpTaken 5 h s → CellTakes 5 h s → h.epoch = s.act.epoch →
    driveOfCode n.toNat = some d → s.tables.mapped d = true →
    ((∃ w, d = .wheel w) → s.top ≠ .idle → s.top ≠ .mow →
      exec (.brake h [n]) s = .next (takeToken (enterRefusal .state 5 6 0 (acceptCp s)))) ∧
    ((∀ w, d = .wheel w → s.top = .idle ∨ s.top = .mow) →
      ∃ u, exec (.brake h [n]) s = .next (takeToken u) ∧
        (match d with
          | .wheel .left => u.env.req = { s.env.req with left := 0 } ∧ .wheelBrake .left ∈ u.dp.queue
          | .wheel .right => u.env.req = { s.env.req with right := 0 } ∧ .wheelBrake .right ∈ u.dp.queue
          | .blade b => u.env.req = { s.env.req with blades := s.env.req.blades.set b 0 } ∧ .bladeStop b ∈ u.dp.queue
          | .deck => u = acceptCp s) ∧
        (d ≠ .deck → HeldFollows u) ∧ ChangedQueued s u ∧
        SameConfig s u ∧ u.act = s.act ∧ u.gate = s.gate ∧ u.exe = s.exe ∧ u.home = s.home ∧ u.reports = s.reports ∧
        u.dp.records = s.dp.records ∧ u.haz = (acceptCp s).haz ∧ u.port = (acceptCp s).port)

/-- R149: the kind conditions of the drive commands that find a drive unmapped or a selector out of range, in the order of the table: NODE with
offset 0, RANGE with offset 5. (INTERLOCK and STATE stand with BLADE-START and BRAKE above.) -/
def Obligations.KindConditionsRefuseDriveCommands : Prop :=
  ∀ (h : Header) (l0 l1 r0 r1 sel mm n : Byte) (s : State), CpTaken 5 h s → h.epoch = s.act.epoch →
    let refused := fun (i : Instr) (kind : Byte) (c : Code) (o : Nat) =>
      exec i s = .next (takeToken (enterRefusal c 5 kind o (acceptCp s)))
    (CellTakes 0 h s → s.tables.mapped (.wheel .left) = false ∨ s.tables.mapped (.wheel .right) = false →
      refused (.wheelSpeed h [l0, l1, r0, r1]) 1 .node 0) ∧
    (CellTakes 1 h s →
      (3 < sel.toNat → refused (.bladeSpeed h [sel, r0, r1]) 2 .range 5) ∧
      (∀ b, bladeOf sel.toNat = some b → s.tables.mapped (.blade b) = false → refused (.bladeSpeed h [sel, r0, r1]) 2 .node 0) ∧
      (sel = 3 → (∀ b, s.tables.mapped (.blade b) = false) → refused (.bladeSpeed h [sel, r0, r1]) 2 .node 0)) ∧
    (CellTakes 2 h s → (∀ b, s.tables.mapped (.blade b) = false) → refused (.bladeStart h []) 3 .node 0) ∧
    (CellTakes 4 h s → s.tables.mapped .deck = false → refused (.deckHeight h [mm]) 5 .node 0) ∧
    (CellTakes 5 h s →
      (5 < n.toNat → refused (.brake h [n]) 6 .range 5) ∧
      ∀ d, driveOfCode n.toNat = some d → s.tables.mapped d = false → refused (.brake h [n]) 6 .node 0)

/-- R142 to R147: the check order of the gate on a drive command: form, ABSENT, RANK, STALE, GATED, and for a DEFER cell the deferred slot or BUSY.
A refused command only enters its refusal. The tag 0 in the slot is the model's choice (log entry 22). A command with an empty payload names no
kind: it is refused with UNDEFINED at offset 4, and the kind byte of the refusal is free (the model's choice, log entry 14). R143: the kinds are 1
to 6, and behind the kind byte stand 4 bytes for kind 1, 3 for kind 2, none for kinds 3 and 4 and one for kinds 5 and 6; another kind is refused at
offset 4, another length at offset 3. -/
def Obligations.GateChecksDriveCommandsInOrder : Prop :=
  (∀ (h : Header) (s : State), CpTaken 5 h s → exec (.frameWithoutUser .cp 5 h []) s =
    .next (takeToken (enterRefusal .undefined 5 (Config.freeByte s.fresh) 4 ((acceptCp s).setFresh (s.fresh + 1))))) ∧
  ∀ (i : Instr) (h : Header) (kind : Byte) (rest : List Byte) (s : State), i.frame? = some (.cp, ⟨5, h, kind :: rest⟩) →
    rest.length ≤ 23 → CpTaken 5 h s →
    let suits := ((kind = 1 ∧ rest.length = 4) ∨ (kind = 2 ∧ rest.length = 3) ∨ ((kind = 3 ∨ kind = 4) ∧ rest.length = 0) ∨
      ((kind = 5 ∨ kind = 6) ∧ rest.length = 1))
    (kind = 0 ∨ 6 < kind.toNat → exec i s = .next (takeToken (enterRefusal .undefined 5 kind 4 (acceptCp s)))) ∧
    (kind ≠ 0 → kind.toNat ≤ 6 → ¬suits → exec i s = .next (takeToken (enterRefusal .undefined 5 kind 3 (acceptCp s)))) ∧
    (suits → ∃ o, parseDrive kind.toNat rest = some (some o)) ∧
    ∀ o, parseDrive kind.toNat rest = some (some o) → suits ∧ o.row.val + 1 = kind.toNat ∧
      let c := s.tables.cell o.row s.top
      let idx := o.row.val * 6 + s.top.code
      let rank := effectiveRank s.tables h.rank
      (c.present = false → exec i s = .next (takeToken (enterRefusal .absent 5 kind idx (acceptCp s)))) ∧
      (c.present = true → c.rankLimit < rank →
        exec i s = .next (takeToken (enterRefusal .rank 5 kind idx (acceptCp s)))) ∧
      (c.present = true → rank ≤ c.rankLimit → h.epoch ≠ s.act.epoch →
        exec i s = .next (takeToken (enterRefusal .stale 5 kind 2 (acceptCp s)))) ∧
      (c.present = true → rank ≤ c.rankLimit → h.epoch = s.act.epoch → c.disp = .refuse →
        exec i s = .next (takeToken (enterRefusal .gated 5 kind idx (acceptCp s)))) ∧
      (c.present = true → rank ≤ c.rankLimit → h.epoch = s.act.epoch → c.disp = .defer → s.gate.deferred ≠ none →
        exec i s = .next (takeToken (enterRefusal .busy 5 kind idx (acceptCp s)))) ∧
      (c.present = true → rank ≤ c.rankLimit → h.epoch = s.act.epoch → c.disp = .defer → s.gate.deferred = none →
        exec i s = .next (takeToken ((acceptCp s).setGate { s.gate with
          deferred := some ⟨o, 0, rank, h.epoch, s.act.epoch⟩ })))

/-! ### Management requests -/

/-- R195, R197: PING is answered DONE and changes nothing else; a request code or READ-STATUS selector that names nothing is refused with UNDEFINED at
offset 4 or 6, in the refusal record too. R196, R198: the checks of READ-TABLE in their order, and its data. R143, R196: a length that does not suit
the request is refused with UNDEFINED at offset 3, before the checks that follow. A refusal also enters the refusal record; nothing else changes. The
bytes repeated from a request too short to carry them are free (log entry 6), and a missing fixed field of READ-TABLE comes before its table id (log
entry 14). -/
def Obligations.PingUndefinedAndReadTableRequests : Prop :=
  (∀ (h : Header) (tag code : Byte) (rest : List Byte) (s : State), Requested h s → rest.length ≤ 22 →
    (exec (.ping h [tag]) s = .next (takeToken ((acceptCp s).setPort { (acceptCp s).port with
      replies := repliesWith s 1 tag (.done []) s.act.epoch }))) ∧
    (code = 0 ∨ 13 < code.toNat →
      exec (.undefinedRequest h (code :: tag :: rest)) s =
        .next (takeToken ((enterRefusal .undefined 7 code 4 (acceptCp s)).setPort { (acceptCp s).port with
          replies := repliesWith s code tag (.no .undefined 4) s.act.epoch }))) ∧
    (∀ sel more, rest = sel :: more → 7 < sel.toNat →
      exec (.undefinedRequest h (4 :: tag :: rest)) s =
        .next (takeToken ((enterRefusal .undefined 7 4 6 (acceptCp s)).setPort { (acceptCp s).port with
          replies := repliesWith s 4 tag (.no .undefined 6) s.act.epoch })))) ∧
  (∀ (h : Header) (tag id first count : Byte) (more : List Byte) (s : State), Requested h s → more.length ≤ 19 →
    let a : Answer := match TableId.named id.toNat with
      | none => .no .undefined 6
      | some t =>
        if more ≠ [] then .no .undefined 3
        else if effectiveRank s.tables h.rank ≠ 1 then .no .rank 0
        else if t.entries ≤ first.toNat then .no .range 7
        else if count = 0 ∨ t.entries < first.toNat + count.toNat then .no .range 8
        else .done (s.tables.entriesBytes t first.toNat count.toNat)
    exec (.readTable h (tag :: id :: first :: count :: more)) s =
      .next (takeToken ((if a.code = .done then acceptCp s else enterRefusal a.code 7 2 a.offset (acceptCp s)).setPort
        { (acceptCp s).port with replies := repliesWith s 2 tag a s.act.epoch }))) ∧
  ∀ (h : Header) (tag code : Byte) (args : List Byte) (s : State), Requested h s → args.length ≤ 21 →
    let refused := fun (i : Instr) (code tag : Byte) (o fresh : Nat) =>
      exec i s = .next (takeToken (((enterRefusal .undefined 7 code o (acceptCp s)).setFresh fresh).setPort
        { (acceptCp s).port with replies := repliesWith s code tag (.no .undefined o) s.act.epoch }))
    let long := fun (i : Instr) (code : Byte) => refused i code tag 3 s.fresh
    let short := fun (i : Instr) (code : Byte) (o : Nat) => refused i code (Config.freeByte s.fresh) o (s.fresh + 1)
    (args ≠ [] → long (.ping h (tag :: args)) 1 ∧ long (.startMow h (tag :: args)) 5 ∧ long (.leaveDock h (tag :: args)) 7 ∧
      long (.pause h (tag :: args)) 8 ∧ long (.resume h (tag :: args)) 9 ∧ long (.storeImage h (tag :: args)) 11 ∧
      long (.loadImage h (tag :: args)) 12 ∧ long (.restart h (tag :: args)) 13 ∧
      long (.readStatusStack h tag args) 4 ∧ long (.readStatusEnvelope h tag args) 4 ∧ long (.readStatusHazards h tag args) 4 ∧
      long (.readStatusDrives h tag args) 4 ∧ long (.readStatusRefusal h tag args) 4 ∧ long (.readStatusImage h tag args) 4) ∧
    (args.length ≠ 1 → long (.goHome h (tag :: args)) 6 ∧ long (.runManoeuvre h (tag :: args)) 10 ∧
      long (.readStatusLoops h tag args) 4) ∧
    (args.length ≠ 2 → long (.readStatusCells h tag args) 4) ∧
    (args.length < 3 → long (.readTable h (tag :: args)) 2) ∧ long (.undefinedRequest h [4, tag]) 4 ∧
    short (.ping h []) 1 3 ∧ short (.readTable h []) 2 3 ∧ short (.writeTable h []) 3 3 ∧ short (.undefinedRequest h [4]) 4 3 ∧
    short (.startMow h []) 5 3 ∧ short (.goHome h []) 6 3 ∧ short (.leaveDock h []) 7 3 ∧ short (.pause h []) 8 3 ∧
    short (.resume h []) 9 3 ∧ short (.runManoeuvre h []) 10 3 ∧ short (.storeImage h []) 11 3 ∧ short (.loadImage h []) 12 3 ∧
    short (.restart h []) 13 3 ∧ (code = 0 ∨ 13 < code.toNat → short (.undefinedRequest h [code]) code 4) ∧
    refused (.undefinedRequest h []) (Config.freeByte s.fresh) (Config.freeByte (s.fresh + 1)) 3 (s.fresh + 2)

/-- R196, R199: the form of a WRITE-TABLE comes before all else: too few bytes for its fixed fields, or a length that is not that of its values, is
refused with UNDEFINED at offset 3, a table id that names none at 6, a mask that selects nothing at 9 and one that selects no field of the
entries at its own byte, and entries of different shapes with RANGE at 8; so is every check before the rank's. A request that lacks a fixed
field is refused before its table id is read, which is the model's reading (log entry 14), and so is the shape that a manoeuvre write is held
against when it names no entry (`WriteReq.shape`, log entry 51). R200, R201: a well-sized WRITE-TABLE is refused with
RANK, BUSY or ACTIVE in that order, or for a value it must not hold; refused it changes no table, taken it replaces the entries it names and no
others, with the side effects of each in index order, and the reply is DONE, or CLAMPED at the first written value that was changed; the rest of
the port interface is as the acceptance left it. The offsets of
the refusals by entry and by a check across entries where the manual names none (of a pair of breakpoints or bounds out of order the lower named
one), and DONE for a boolean above 1, are the model's choice (log entries 21 and 20); that the decoder's outputs are re-evaluated after the last
named entry is read from R32 and R201 (log entry 36), and that each response of one write advances the epoch on its own is the model's reading (log
entry 17). -/
def Obligations.WriteTableIsTakenWholeOrNotAtAll : Prop :=
  (∀ (h : Header) (tag : Byte) (args : List Byte) (s : State), Requested h s → args.length ≤ 22 →
    let refused := fun (c : Code) (o : Nat) =>
      exec (.writeTable h (tag :: args)) s = .next (takeToken ((enterRefusal c 7 3 o (acceptCp s)).setPort
        { (acceptCp s).port with replies := repliesWith s 3 tag (.no c o) s.act.epoch }))
    (args.length < 7 → refused .undefined 3) ∧
    ∀ (id first count m0 m1 m2 m3 : Byte) (values : List Byte), args = id :: first :: count :: m0 :: m1 :: m2 :: m3 :: values →
      (TableId.named id.toNat = none → refused .undefined 6) ∧
      ∀ tb, TableId.named id.toNat = some tb →
        let w : WriteReq := ⟨tb, first.toNat, count.toNat, maskOf m0 m1 m2 m3, values⟩
        let mixed := tb = .manoeuvre ∧ first.toNat < 8 ∧ 8 < first.toNat + count.toNat
        (mixed → refused .range 8) ∧
        (¬mixed → w.mask = 0 → refused .undefined 9) ∧
        (∀ n : Fin 32, ¬mixed → w.shape.length ≤ n.val → w.selects n.val = true →
          (∀ k : Fin 32, k < n → w.selects k.val = true → k.val < w.shape.length) → refused .undefined (9 + n.val / 8)) ∧
        (¬mixed → w.mask ≠ 0 → (∀ n : Fin 32, w.selects n.val = true → n.val < w.shape.length) →
          values.length ≠ count.toNat * w.width → refused .undefined 3)) ∧
  ∀ (h : Header) (tag id first count m0 m1 m2 m3 : Byte) (values : List Byte) (tb : TableId) (s : State),
    let w : WriteReq := ⟨tb, first.toNat, count.toNat, maskOf m0 m1 m2 m3, values⟩
    Requested h s → TableId.named id.toNat = some tb → values.length ≤ 15 → w.mixed = false → w.badMask = none →
    values.length = w.count * w.width →
    let i := Instr.writeTable h (tag :: id :: first :: count :: m0 :: m1 :: m2 :: m3 :: values)
    let refused := fun (c : Code) (o : Nat) =>
      exec i s = .next (takeToken ((enterRefusal c 7 3 o (acceptCp s)).setPort
        { (acceptCp s).port with replies := repliesWith s 3 tag (.no c o) s.act.epoch }))
    (effectiveRank s.tables h.rank ≠ 1 → refused .rank 0) ∧
    (effectiveRank s.tables h.rank = 1 → s.mgmt.op ≠ none → refused .busy 0) ∧
    (effectiveRank s.tables h.rank = 1 → s.mgmt.op = none → s.top.admitsWrites = false → refused .active 0) ∧
    (effectiveRank s.tables h.rank = 1 → s.mgmt.op = none → s.top.admitsWrites = true →
      (tb.entries ≤ w.first → refused .range 7) ∧
      (w.first < tb.entries → w.count = 0 ∨ tb.entries < w.first + w.count → refused .range 8) ∧
      (w.first + w.count ≤ tb.entries → 0 < w.count →
        (∀ o, w.rows s.tables (chainFloor s) 0 w.count = .error o → refused .range o) ∧
        ∀ rows, w.rows s.tables (chainFloor s) 0 w.count = .ok rows →
          (∀ o, w.conflict (writeRows tb rows s.tables) = some o → refused .range o) ∧
          (w.conflict (writeRows tb rows s.tables) = none → ∃ t, exec i s = .next t ∧
            t.tables = writeRows tb rows s.tables ∧ t.mgmt = s.mgmt ∧ t.pins = s.pins ∧ t.pending = s.pending ∧
            (∀ k, k < tb.entries → k < w.first ∨ w.first + w.count ≤ k → t.tables.rawEntry tb k = s.tables.rawEntry tb k) ∧
            (∀ x ∈ allEntries, x.1 ≠ tb → t.tables.rawEntry x.1 x.2 = s.tables.rawEntry x.1 x.2) ∧
            (∃ v, t = takeToken v ∧ v = (tableWritten tb (w.indexes.foldl
                (fun u k => entryWritten tb k s.tables (w.selects 1) u)
                ((acceptCp s).setTables (writeRows tb rows s.tables)))).setPort v.port) ∧
            t.port = { (acceptCp s).port with replies := t.port.replies } ∧
            ∃ c o, t.port.replies = repliesWith s 3 tag ⟨c, o, []⟩ t.act.epoch ∧
              ((∀ r ∈ rows, r.asked = r.stands) → c = .done ∧ o = 0) ∧
              ((∃ r ∈ rows, r.asked ≠ r.stands) → c = .clamped) ∧
              let changed := fun (k n : Nat) => w.selects n = true ∧
                ∃ r, rows[k]? = some r ∧ n < r.asked.length ∧ r.asked[n]? ≠ r.stands[n]?
              (∀ k n, changed k n → (∀ k' n', k' < k ∨ (k' = k ∧ n' < n) → ¬changed k' n') → o = w.offset k n) ∧
              ((∀ k n, ¬changed k n) → o = 0))))

/-- R201 with R4, R7, R17, R32, R34, R37, R39, R48, R82, R84, R86, R87, R120, R159, R177: the side effects of one written entry of each table, `s`
being the state with the tables written and `old` the tables before; and the re-evaluation that follows the last entry of the coil and the loop
table (log entry 36). The other tables have none. A home entry drops the guide view when its guide loop field is written, also with the value that
stands (`guide`, log entry 25). A coil entry drops it when the coil was the front coil before the write or is it after, which is the model's choice
where the write itself moves the front coil (log entry 54). A new drive record holds the last status 0 behind its clear taken mark (`freshDriveRec`,
log entry 2). After a drive entry the four drive conditions are formed anew and reach their sources (R93, R174 to R177). -/
def Obligations.WrittenEntriesActOnTheBlocks : Prop :=
  ∀ (old : Tables) (guide : Bool) (s : State), let t := s.tables
    let u := fun (id : TableId) (k : Nat) => entryWritten id k old guide s
    (∀ id ∈ [TableId.intake, .distance, .gate, .manoeuvre, .timing], ∀ k, u id k = s) ∧
    (∀ k, u .envelope k = refresh s) ∧
    (∀ k, (u .home k).env.caps = { (refresh s).env.caps with activity := match s.top with
        | .idle => t.home.capIdle | .mow => t.home.capMow | .follow => t.home.capFollow | .escape => t.home.capEscape
        | .docked | .halt => 0 } ∧ (u .home k).act = s.act ∧
      (u .home k).home = { s.home with guideView := if guide then none else s.home.guideView }) ∧
    (∀ id, tableWritten id s = if id = .coil ∨ id = .loop then reevaluate s else s) ∧
    (∀ c : Fin 4, let v := u .coil c.val
      let gone := old.coil[c].present = true ∧ (t.coil[c].present = false ∨ t.coil[c].node ≠ old.coil[c].node)
      (∀ (l : Fin 8) (c' : Fin 4), v.dec.cell l c' = if c' = c then emptyCell else s.dec.cell l c') ∧
      v.dec.intakes[c].lastSeq = none ∧ v.dec.intakes[c].missed = 0 ∧
      (∀ c' : Fin 4, c' ≠ c → v.dec.intakes[c'] = s.dec.intakes[c']) ∧
      (∀ n : Fin 8, v.haz.nodes[n] = if n = coilNode c then
          (if t.coil[c].present then some ⟨.pending, some (3 * t.coil[c].period)⟩ else none) else s.haz.nodes[n]) ∧
      (∀ l : Fin 8, v.dec.trackers[l] = if gone ∧ t.loop[l].enabled = true ∧ t.loop[l].refCoil = c then
          (match s.dec.trackers[l].state with
            | .locked => { s.dec.trackers[l] with state := .fading, lose := 0, fade := some t.loop[l].fadeTime }
            | .search => { s.dec.trackers[l] with run := 0 }
            | .fading | .off => s.dec.trackers[l])
        else s.dec.trackers[l]) ∧
      v.home.guideView = (if old.frontCoil = some c ∨ t.frontCoil = some c then none else s.home.guideView) ∧
      (v.haz.sources[srcSensorSilent].cond = true ↔ ∃ n : Fin 8, nodeSilent v.haz n = true)) ∧
    (∀ l : Fin 8, let v := u .loop l.val
      let was := s.dec.trackers[l].state = .locked ∨ s.dec.trackers[l].state = .fading
      (∀ l' : Fin 8, v.dec.trackers[l'] = if l' = l then ⟨if t.loop[l].enabled then .search else .off, 0, 0, 0, 0, none⟩
        else s.dec.trackers[l']) ∧
      (∀ (l' : Fin 8) (c : Fin 4), v.dec.cell l' c = if l' = l then emptyCell else s.dec.cell l' c) ∧
      v.haz = (if was then (markNotice 18 s).haz else s.haz) ∧ v.dec.intakes = s.dec.intakes ∧
      v.home.guideView = (if l = t.home.guide then none else s.home.guideView) ∧
      (∀ r, was → s.top = .follow → s.act.stack.follow? = some r → r.loop = l →
        v.env.req = { s.env.req with left := 0, right := 0 }) ∧ v.exe = s.exe ∧ v.gate = s.gate) ∧
    (∀ i : Fin 16, let v := u .hazard i.val
      let was := old.hazard[i]
      let now := t.hazard[i]
      let rises := was.enabled = false ∧ now.enabled = true ∧ s.haz.sources[i].cond = true ∧ s.srcState i = .quiet
      (rises → ∃ w, v = actEvent (responseChange i) w ∧ w.srcState i = .raised ∧ w.haz.sources[i].hold = none ∧
        w.haz.pending.getLsbD i.val = true ∧ w.act = s.act ∧ ∀ j : Fin 16, j ≠ i → w.haz.sources[j] = s.haz.sources[j]) ∧
      (¬rises → v.act = s.act ∧ v.env.caps = (refresh v).env.caps ∧ v.haz.sources[i].cond = s.haz.sources[i].cond ∧
        (∀ j : Fin 16, j ≠ i → v.haz.sources[j] = s.haz.sources[j]) ∧
        (was.enabled = true → now.enabled = false → v.srcState i = .quiet ∧ v.haz.sources[i].owed = false ∧
          (s.srcState i ≠ .quiet → v.haz.sources[i].hold = none ∧ v.haz.pending.getLsbD i.val = true)) ∧
        (was.enabled = false ∨ now.enabled = true → v.srcState i = s.srcState i ∧ v.haz.sources[i].hold = s.haz.sources[i].hold ∧
          v.haz.sources[i].owed = (s.haz.sources[i].owed && !(was.response = .escape && now.response ≠ .escape))))) ∧
    (∀ d : Drive, let v := u .drive d.idx.val
      v.dp.recOf d = freshDriveRec ∧ (∀ d', d' ≠ d → v.dp.recOf d' = s.dp.recOf d') ∧ v.dp.cycle = s.dp.cycle ∧
      (t.mapped d = true → s.dp.queue.IsPrefix v.dp.queue ∧ (∀ w, d = .wheel w → .wheelBrake w ∈ v.dp.queue) ∧
        (∀ b, d = .blade b → .bladeStop b ∈ v.dp.queue) ∧
        (d = .deck → s.env.held.deck ≠ 0 → .height ∈ v.dp.queue)) ∧
      (t.mapped d = false → (s.dp.queue.filter fun x => x.drive ≠ d).IsPrefix v.dp.queue ∧ ∀ x ∈ v.dp.queue, x.drive ≠ d) ∧
      (∀ b, d = .blade b → v.env.percents.get b = 0) ∧ DriveConditionsFormed s v) ∧
    ∀ k, let v := u .sensor k
      let lost := fun (now was : SensorNode) => was.present = true ∧ now.present = false
      (∀ n : Fin 8, v.haz.nodes[n] = if n.val < 4 then s.haz.nodes[n] else (t.nodePeriod n).map fun p => ⟨.pending, some (3 * p)⟩) ∧
      (lost t.sensor.incline old.sensor.incline → v.haz.sources[srcTilt].cond = false) ∧
      (lost t.sensor.contact old.sensor.contact → v.haz.sources[srcLift].cond = false ∧
        v.haz.sources[srcBumpLeft].cond = false ∧ v.haz.sources[srcBumpRight].cond = false) ∧
      (lost t.sensor.power old.sensor.power → NothingWaits s → v.haz.sources[srcBatteryLow].cond = false) ∧
      (lost t.sensor.rain old.sensor.rain → v.haz.sources[srcRain].cond = false) ∧
      (v.haz.sources[srcSensorSilent].cond = true ↔ ∃ n : Fin 8, nodeSilent v.haz n = true) ∧
      v.env.caps.slope = (t.band 1 3).cap ∧ v.dec = s.dec ∧ v.haz.kept = s.haz.kept

/-- R31, R49, R74, R99, R156, R179, R197: each READ-STATUS is answered DONE with its data as the state stands and changes nothing else, but for
READ-STATUS(REFUSAL), which empties the record. LOOPS and CELLS refuse a number out of range at its offset. The second part writes the data of the
eight selectors out item by item, in the order of their rules and with the codes and widths of sections 11.2 and 11.3. How the items are laid out
where the manual leaves it open is the model's choice (log entry 10), and so is that CELLS with both numbers out of range is refused at the loop
(log entry 42). -/
def Obligations.StatusReadsChangeNothing : Prop :=
  (∀ (h : Header) (tag : Byte) (s : State), Requested h s → let u := acceptCp s
    let done : State → List Byte → Host.Outcome State Fault Refusal := fun v data => .next (takeToken (v.setPort { u.port with
      replies := repliesWith s 4 tag (.done data) s.act.epoch }))
    let range : Nat → Host.Outcome State Fault Refusal := fun o => .next (takeToken ((enterRefusal .range 7 4 o u).setPort { u.port with
      replies := repliesWith s 4 tag (.no .range o) s.act.epoch }))
    exec (.readStatusStack h tag []) s = done u (stackData u) ∧
    exec (.readStatusEnvelope h tag []) s = done u (envelopeData u) ∧
    exec (.readStatusHazards h tag []) s = done u (hazardsData u) ∧
    exec (.readStatusDrives h tag []) s = done u (drivesData u) ∧
    exec (.readStatusImage h tag []) s = done u (imageData u) ∧
    exec (.readStatusRefusal h tag []) s = done (u.setGate { u.gate with refusal := none }) (refusalData u) ∧
    (∀ l : Fin 8, exec (.readStatusLoops h tag [BitVec.ofNat 8 l.val]) s = done u (loopData l u)) ∧
    (∀ (l : Fin 8) (c : Fin 4),
      exec (.readStatusCells h tag [BitVec.ofNat 8 l.val, BitVec.ofNat 8 c.val]) s = done u (cellData l c u)) ∧
    (∀ l c : Byte, 8 ≤ l.toNat → exec (.readStatusLoops h tag [l]) s = range 7 ∧
      exec (.readStatusCells h tag [l, c]) s = range 7) ∧
    ∀ l c : Byte, l.toNat < 8 → 4 ≤ c.toNat → exec (.readStatusCells h tag [l, c]) s = range 8) ∧
  ∀ s : State, let t := s.tables
    let k := s.act.stack
    (imageData s = codeOf [Startup.loading, .ready] s.mgmt.startup ++ codeOf [ImageState.valid, .defaults] s.mgmt.image ++
      codeOf [StoredMark.good, .bad, .absent] s.mgmt.mark ++
      (match s.mgmt.op with
        | none => [0]
        | some o => (match o.kind with
          | .store => [1]
          | .load => [2]) ++ bytesOf 2 o.elapsed) ++ bytesOf 2 1453) ∧
    (∀ l : Fin 8, let x := s.dec.trackers[l]
      loopData l s = flagOf t.loop[l].enabled ++ codeOf [TrackState.off, .search, .locked, .fading] x.state ++ bytesOf 1 x.rho.val ++
        bytesOf 1 x.cand.val ++ bytesOf 1 x.run ++ bytesOf 1 x.lose ++ timeLeft x.fade ++ twoOrNone s.dec.n ++ flagOf s.dec.outside ++
        flagOf s.dec.wireLost) ∧
    (∀ (l : Fin 8) (c : Fin 4), let x := s.dec.cell l c
      cellData l c s = codeOf [CellMark.empty, .fresh, .stale] x.mark ++ bytesOf 2 x.con ++ bytesOf 2 x.f ++ bytesOf 2 x.d ++
        bytesOf 1 x.sign.val ++ bytesOf 2 x.e ++ bytesOf 2 x.used ++ codeOf [Role.front, .left, .right, .rear] t.coil[c].role ++
        bytesOf 2 s.dec.intakes[c].missed) ∧
    (let c := s.env.caps
      let p := s.env.percents
      let load := fun (b : Blade) => if t.mapped (.blade b) then p.get b else 0
      let drive := fun (d : Drive) (req held : Int) => bytesOf 2 req ++ bytesOf 2 held ++ flagOf (t.mapped d)
      envelopeData s = bytesOf 2 c.proximity ++ bytesOf 2 c.slope ++ bytesOf 2 c.load ++ bytesOf 2 c.hazard ++ bytesOf 2 c.activity ++
        bytesOf 2 s.env.k ++ twoOrNone s.env.n ++ bytesOf 2 (max s.env.pitch.natAbs s.env.roll.natAbs : Nat) ++
        flagOf (s.haz.nodes[(4 : Fin 8)].map NodeRec.state == some .fresh) ++ bytesOf 2 p.a ++ bytesOf 2 p.b ++ bytesOf 2 p.c ++
        bytesOf 2 (max (load .bladeA) (max (load .bladeB) (load .bladeC)) : Nat) ++ flagOf s.act.bladeEnable ++
        codeOf [Kind.idle, .mow, .follow, .docked, .escape, .halt] s.top ++
        drive (.wheel .left) s.env.req.left s.env.held.left ++ drive (.wheel .right) s.env.req.right s.env.held.right ++
        drive (.blade .bladeA) s.env.req.blades.a s.env.held.blades.a ++ drive (.blade .bladeB) s.env.req.blades.b s.env.held.blades.b ++
        drive (.blade .bladeC) s.env.req.blades.c s.env.held.blades.c ++ drive .deck s.env.req.deck s.env.held.deck) ∧
    (let mow := k.mow.toList.map fun r => [1, 0x10, r.entry]
      let home := k.home.toList.map fun x => match x with
        | .follow r => [2, if r.byReturn then 0x11 else 0x10, r.entry] ++ bytesOf 1 r.loop.val ++
            codeOf [Phase.seek, .track, .approach, .contact] r.phase ++ bytesOf 4 r.travelled ++ flagOf r.endAfter ++ bytesOf 1 r.confirm
        | .docked r => [3, 0x13, r.entry] ++ flagOf r.contact ++ flagOf r.endAfter
      let escape := k.esc.toList.map fun r => [4] ++ (match r.cause with
        | .source i => bytesOf 1 i.val
        | .request => [0x10]
        | .undock => [0x12]) ++ [r.entry] ++ bytesOf 1 r.man.val ++ bytesOf 1 r.step.val ++ bytesOf 4 r.progress ++ bytesOf 2 r.elapsed ++
          bytesOf 1 r.chain
      let halt := k.halt.toList.map fun r => [5, 0xFF, r.entry] ++
        bytesOf 3 (r.causes.sources.toNat + 65536 * r.causes.pause.toNat + 131072 * r.causes.noDock.toNat)
      let records := [[0, 0x14, 0]] ++ mow ++ home ++ escape ++ halt
      stackData s = bytesOf 1 records.length ++ [s.act.epoch] ++ flagOf s.act.bladeEnable ++ flagOf s.act.shadow ++
        flagOf s.act.pendingReturn ++ bytesOf 1 records.length ++ records.flatten ++
        (match s.exe.held with
          | none => [0, 0xFF]
          | some x => (match x.phase with
            | .running => [1]
            | .frozen => [2]
            | .ending => [3]) ++ [x.entry]) ++
        flagOf (s.top == .follow && k.follow?.isSome) ++ twoOrNone (s.home.guideView.map fun f => (f : Int)) ++ flagOf s.home.reported ++
        flagOf s.home.ready ++ byteOrNone s.home.lastPercent) ∧
    (let source := fun (i : Fin 16) =>
        let r := s.haz.sources[i]
        let x := t.hazard[i]
        flagOf r.cond ++ codeOf [SrcState.quiet, .raised, .held] r.state ++ flagOf x.enabled ++
          codeOf [Response.note, .slow, .escape, .ret, .halt] x.response ++ timeLeft r.hold ++ flagOf r.owed ++ flagOf r.raisedSince ++
          flagOf (s.haz.pending.getLsbD i.val)
      let node := fun (n : Fin 8) (address : Byte) => s.haz.nodes[n].toList.map fun r =>
        [address] ++ codeOf [NodeLive.pending, .fresh, .silent] r.state ++ timeLeft r.deadline
      let nodes := node 0 t.coil[0].node ++ node 1 t.coil[1].node ++ node 2 t.coil[2].node ++ node 3 t.coil[3].node ++
        node 4 t.sensor.incline.node ++ node 5 t.sensor.contact.node ++ node 6 t.sensor.power.node ++ node 7 t.sensor.rain.node
      let x := s.haz.kept
      hazardsData s = source 0 ++ source 1 ++ source 2 ++ source 3 ++ source 4 ++ source 5 ++ source 6 ++ source 7 ++ source 8 ++ source 9 ++
        source 10 ++ source 11 ++ source 12 ++ source 13 ++ source 14 ++ source 15 ++
        flagOf (s.haz.pending.getLsbD 16) ++ flagOf (s.haz.pending.getLsbD 17) ++ flagOf (s.haz.pending.getLsbD 18) ++
        flagOf (s.haz.pending.getLsbD 19) ++ timeLeft s.haz.wireDelay ++ bytesOf 1 nodes.length ++ nodes.flatten ++
        flagOf x.contactTaken ++ [x.contact] ++
        flagOf x.inclineTaken ++ bytesOf 2 x.incline.pitch ++ bytesOf 2 x.incline.roll ++ bytesOf 2 x.incline.heading ++
        flagOf x.powerTaken ++ bytesOf 1 x.power.percent ++ bytesOf 2 x.power.batteryMv ++ bytesOf 2 x.power.dockMv ++
        bytesOf 2 x.power.currentMa ++ bytesOf 1 x.power.temp ++ flagOf x.power.charging ++
        flagOf x.wetnessTaken ++ bytesOf 1 x.wetness) ∧
    (let drive := fun (d : Drive) (own : List Byte) =>
        let r := s.dp.recOf d
        flagOf (t.mapped d) ++ [(t.driveOf d).node] ++ codeOf [DriveNode.pending, .active, .faulted, .unresponsive] r.state ++
          bytesOf 1 r.miss ++ own ++ flagOf r.taken ++ bytesOf 2 r.status.tick ++ bytesOf 2 r.status.current ++ bytesOf 2 r.status.speed ++
          [r.status.fault]
      let wheel := fun (w : Wheel) => let r := s.dp.recOf (.wheel w)
        drive (.wheel w) (bytesOf 2 r.acc ++ bytesOf 1 r.stallRun ++ flagOf (t.mapped (.wheel w) && r.stallRun == 4))
      let blade := fun (b : Blade) => drive (.blade b) (bytesOf 1 (s.dp.recOf (.blade b)).overRun)
      let token := fun (x : Token) => codeOf tokenRow x
      drivesData s = wheel .left ++ wheel .right ++ blade .bladeA ++ blade .bladeB ++ blade .bladeC ++ drive .deck [] ++
        (match s.dp.cycle with
          | .idle => [0]
          | .sending f => [1] ++ token f.token ++ [f.address]
          | .awaitReply f => [2] ++ token f.token ++ [f.address]) ++
        timeLeft s.dp.replyTimer ++ bytesOf 1 s.dp.queue.length ++ s.dp.queue.flatMap token ++ timeLeft s.dp.refreshTimer ++
        flagOf s.dp.stallLeft ++ flagOf s.dp.stallRight ++ flagOf s.dp.overload ++ flagOf s.dp.fault) ∧
    refusalData s = (match s.gate.refusal with
        | none => [0xFF]
        | some r => codeOf codeRow r.reason ++ bytesOf 1 r.cls ++ [r.kind] ++ bytesOf 1 r.detail ++ bytesOf 1 r.further) ++
      match s.gate.deferred with
        | none => [0]
        | some d => [1] ++ (if d.order.row.val < 6 then [5] ++ bytesOf 1 (d.order.row.val + 1 : Nat)
            else [7] ++ bytesOf 1 (d.order.row.val - 1 : Nat)) ++ [d.tag] ++ bytesOf 1 d.rank ++ [d.epoch, d.entry]

/-! ### Activity requests -/

/-- R52, R58: START-MOW under IDLE pushes MOW, under DOCKED inserts it below and clears the end-after-dock flag; with MOW present it changes
nothing; under any other top without MOW it is refused with STATE. R53, R133, R134: the epoch that advances makes ACTIVITY pending; the ready flag is
formed anew when MOW is inserted, and CHARGE is pending when it changes. No other mark and no source moves. -/
def Obligations.StartMowFollowsTheStack : Prop :=
  ∀ (h : Header) (tag : Byte) (s : State), Requested h s → CellTakes 6 h s → NothingWaits s →
    (s.act.stack.mow ≠ none → exec (.startMow h [tag]) s = .next (takeToken ((acceptCp s).setPort { (acceptCp s).port with
      replies := repliesWith s 5 tag (.done []) s.act.epoch }))) ∧
    (s.act.stack.mow = none → s.top ≠ .idle → s.top ≠ .docked →
      exec (.startMow h [tag]) s = .next (takeToken ((enterRefusal .state 7 5 0 (acceptCp s)).setPort
        { (acceptCp s).port with replies := repliesWith s 5 tag (.no .state 0) s.act.epoch }))) ∧
    (s.top = .idle → ∃ u, exec (.startMow h [tag]) s = .next (takeToken u) ∧
      u.act = { s.act with stack := { s.act.stack with mow := some ⟨s.act.epoch + 1⟩ }, epoch := s.act.epoch + 1 } ∧
      u.env.req = { s.env.req with left := 0, right := 0 } ∧ u.haz = (markNotice 16 (acceptCp s)).haz ∧ SameConfig s u ∧
      u.gate = s.gate ∧ u.home = s.home ∧
      u.port = { (acceptCp s).port with replies := repliesWith s 5 tag (.done []) (s.act.epoch + 1) }) ∧
    (∀ r, s.top = .docked → s.act.stack.mow = none → s.act.stack.docked? = some r →
      ∃ u, exec (.startMow h [tag]) s = .next (takeToken u) ∧
        u.act = { s.act with
          stack := { s.act.stack with mow := some ⟨s.act.epoch + 1⟩, home := some (.docked { r with endAfter := false }) }
          epoch := s.act.epoch + 1 } ∧
        (let ready := decide (∃ p ∈ s.home.lastPercent, s.tables.home.resumeLevel ≤ p)
          let w := markNotice 16 (acceptCp s)
          u.home = { s.home with ready := ready } ∧ u.haz = (if s.home.ready = ready then w else markNotice 19 w).haz) ∧
        u.env.req = s.env.req ∧ SameConfig s u ∧ u.gate = s.gate ∧
        u.port = { (acceptCp s).port with replies := repliesWith s 5 tag (.done []) (s.act.epoch + 1) })

/-- R51, R52, R55, R59: GO-HOME under MOW or IDLE pushes FOLLOW in SEEK on the perimeter loop and clears blade-enable; with FOLLOW or DOCKED
present it merges its end value and a set one takes MOW from below DOCKED; else it is refused with STATE. R53, R126, R133, R134: the epoch that
advances makes ACTIVITY pending, the remainder of a new FOLLOW is 0, and where MOW is taken away the ready flag becomes clear, CHARGE being pending
when it was set. No other mark and no source moves. -/
def Obligations.GoHomePushesOrMergesFollow : Prop :=
  ∀ (h : Header) (tag v : Byte) (s : State), Requested h s → CellTakes 7 h s → NothingWaits s →
    (s.top = .mow ∨ s.top = .idle → ∃ u, exec (.goHome h [tag, v]) s = .next (takeToken u) ∧
      u.act = { s.act with
        stack := { s.act.stack with
          home := some (.follow ⟨false, s.act.epoch + 1, s.tables.home.perimeter, .seek, 0, v ≠ 0, 0⟩) }
        epoch := s.act.epoch + 1, bladeEnable := false } ∧
      u.env.req = { s.env.req with left := 0, right := 0 } ∧ u.home = { s.home with remainder := 0, reported := false } ∧
      SameConfig s u ∧ u.gate = s.gate ∧ u.haz = (markNotice 16 (acceptCp s)).haz ∧
      u.port = { (acceptCp s).port with replies := repliesWith s 6 tag (.done []) (s.act.epoch + 1) }) ∧
    (∀ r, s.act.stack.follow? = some r → ∃ u, exec (.goHome h [tag, v]) s = .next (takeToken u) ∧
      u.act = { s.act with stack := { s.act.stack with home := some (.follow { r with endAfter := r.endAfter || v ≠ 0 }) } } ∧
      u.env.req = s.env.req ∧ SameConfig s u ∧ u.gate = s.gate ∧ u.home = s.home ∧ u.haz = (acceptCp s).haz ∧
      u.port = { (acceptCp s).port with replies := repliesWith s 6 tag (.done []) s.act.epoch }) ∧
    (∀ r, s.act.stack.docked? = some r → ∃ u, exec (.goHome h [tag, v]) s = .next (takeToken u) ∧
      u.act.stack = { s.act.stack with
        home := some (.docked { r with endAfter := r.endAfter || v ≠ 0 })
        mow := if v ≠ 0 then none else s.act.stack.mow } ∧
      u.act.epoch = (if v ≠ 0 ∧ s.act.stack.mow.isSome then s.act.epoch + 1 else s.act.epoch) ∧
      u.act.bladeEnable = s.act.bladeEnable ∧ u.env.req = s.env.req ∧ SameConfig s u ∧ u.gate = s.gate ∧
      (v = 0 ∨ s.act.stack.mow = none → u.home = s.home ∧ u.haz = (acceptCp s).haz) ∧
      (v ≠ 0 → s.act.stack.mow ≠ none → let w := markNotice 16 (acceptCp s)
        u.home = { s.home with ready := false } ∧ u.haz = (if s.home.ready then markNotice 19 w else w).haz) ∧
      u.port = { (acceptCp s).port with replies := repliesWith s 6 tag (.done []) u.act.epoch }) ∧
    (s.act.stack.home = none → s.top = .escape ∨ s.top = .halt →
      exec (.goHome h [tag, v]) s = .next (takeToken ((enterRefusal .state 7 6 0 (acceptCp s)).setPort
        { (acceptCp s).port with replies := repliesWith s 6 tag (.no .state 0) s.act.epoch })))

/-- R60, R64, R106, R107: LEAVE-DOCK replaces DOCKED by the undock escape, RUN-MANOEUVRE pushes or replaces an ESCAPE; the executor takes it up in
RUNNING and its step 0 sets the requested wheels and the step timer. A manoeuvre of 0 steps is refused with RANGE, another top with STATE. R53, R91,
R133, R134: the epoch that advances makes ACTIVITY pending; when DOCKED leaves, the ready flag becomes clear, CHARGE being pending when it was set,
and BATTERY-LOW is formed anew. No other mark and no other source moves. That the return level of BATTERY-LOW at LEAVE-DOCK is the one of the table as
it stands is the model's choice (log entry 52). -/
def Obligations.EscapesStartAtStepZero : Prop :=
  ∀ (h : Header) (tag n : Byte) (m : Fin 8) (s : State), Requested h s → NothingWaits s → n.toNat = m.val →
    (∀ x ∈ s.exe.held, x.entry ≠ s.act.epoch + 1) →
    let refused := fun (i : Instr) (code : Byte) (c : Code) (o : Nat) =>
      exec i s = .next (takeToken ((enterRefusal c 7 code o (acceptCp s)).setPort
        { (acceptCp s).port with replies := repliesWith s code tag (.no c o) s.act.epoch }))
    (CellTakes 8 h s → (s.top ≠ .docked → refused (.leaveDock h [tag]) 7 .state 0) ∧
      (s.top = .docked → s.tables.counts[s.tables.home.undock] = 0 → refused (.leaveDock h [tag]) 7 .range 0) ∧
      (s.top = .docked → s.tables.counts[s.tables.home.undock] ≠ 0 →
        s.haz.kept.powerTaken = false ∨ s.tables.sensor.returnLevel ≤ s.haz.kept.power.percent →
        ∃ u, exec (.leaveDock h [tag]) s = .next (takeToken u) ∧ EscapeTakenUp .undock s.tables.home.undock 0 s u ∧
          u.act.stack.home = none ∧ u.home = { s.home with ready := false, lastPercent := none } ∧
          (let w := markNotice 16 (acceptCp s);
            u.haz = (hazardMove srcBatteryLow false (if s.home.ready then markNotice 19 w else w)).1.haz) ∧
          u.port = { (acceptCp s).port with replies := repliesWith s 7 tag (.done []) (s.act.epoch + 1) })) ∧
    (CellTakes 11 h s → (s.tables.counts[m] = 0 → refused (.runManoeuvre h [tag, n]) 10 .range 6) ∧
      (s.tables.counts[m] ≠ 0 → s.top = .docked ∨ s.top = .halt → refused (.runManoeuvre h [tag, n]) 10 .state 0) ∧
      (s.tables.counts[m] ≠ 0 → s.top ≠ .docked → s.top ≠ .halt →
        ∃ u, exec (.runManoeuvre h [tag, n]) s = .next (takeToken u) ∧ EscapeTakenUp .request m 0 s u ∧
          u.act.stack.home = s.act.stack.home ∧ u.haz = (markNotice 16 (acceptCp s)).haz ∧
          u.port = { (acceptCp s).port with replies := repliesWith s 10 tag (.done []) (s.act.epoch + 1) })) ∧
    ∀ x : Byte, 8 ≤ x.toNat → CellTakes 11 h s → refused (.runManoeuvre h [tag, x]) 10 .range 6

/-- R56, R61, R62, R63, R116: PAUSE pushes HALT with PAUSE as cause, takes the shadow and freezes an escape directly below, or joins the HALT that
stands; RESUME pops HALT and an ESCAPE beneath, gives blade-enable back after a soft halt over MOW, and is refused with HAZARD while a cause stands
RAISED and with STATE without a HALT. R63, R123: a FOLLOW that becomes the top again begins anew after NO-DOCK, travelled 0, and else goes on in TRACK
with a strong guide view of a LOCKED guide, or in SEEK. R53: the epoch that advances makes ACTIVITY pending; R62, R77: RESUME moves TRAPPED alone, and
only when it is in the cause set. The detail 0 of HAZARD is the model's reading (log entry 26). -/
def Obligations.PauseAndResume : Prop :=
  ∀ (h : Header) (tag : Byte) (s : State), Requested h s → NothingWaits s →
    (CellTakes 9 h s → s.act.stack.halt = none → ∃ u, exec (.pause h [tag]) s = .next (takeToken u) ∧
      u.act = haltedOver s.act.stack .pause s.act ∧ u.exe = executorAtHalt s.act.stack s.exe ∧
      u.env.req = { s.env.req with left := 0, right := 0 } ∧ u.env.k = 0 ∧ SameConfig s u ∧ u.gate = s.gate ∧
      u.home = s.home ∧ u.haz = (markNotice 16 (acceptCp s)).haz ∧
      u.port = { (acceptCp s).port with replies := repliesWith s 8 tag (.done []) (s.act.epoch + 1) }) ∧
    (∀ r, CellTakes 9 h s → s.act.stack.halt = some r → ∃ u, exec (.pause h [tag]) s = .next (takeToken u) ∧
      u.act = { s.act with stack := { s.act.stack with halt := some { r with causes := r.causes.add .pause } } } ∧
      u.env.req = s.env.req ∧ SameConfig s u ∧ u.gate = s.gate ∧ u.home = s.home ∧ u.exe = s.exe ∧
      u.haz = (acceptCp s).haz ∧ u.port = { (acceptCp s).port with replies := repliesWith s 8 tag (.done []) s.act.epoch }) ∧
    (∀ r, CellTakes 10 h s → s.act.stack.halt = some r → r.causes.blocks s.haz = false → s.act.bladeEnable = false →
      ∃ u, exec (.resume h [tag]) s = .next (takeToken u) ∧
        u.act.stack.halt = none ∧ u.act.stack.esc = none ∧ u.act.stack.mow = s.act.stack.mow ∧
        (∀ f, s.act.stack.follow? = some f →
          let guide := s.tables.home.guide
          let strong := s.dec.trackers[guide].state = .locked ∧ ∃ v ∈ s.home.guideView, s.tables.home.capture ≤ v
          let seek : FollowRec := { f with phase := .seek, loop := s.tables.home.perimeter, confirm := 0 }
          u.act.stack.home = some (.follow (
            if r.causes.noDock then { seek with travelled := 0 }
            else if f.phase ≠ .seek ∧ strong then { f with phase := .track, loop := guide, confirm := 0 } else seek)) ∧
          u.home = { s.home with reported := false, remainder := if r.causes.noDock then 0 else s.home.remainder }) ∧
        (s.act.stack.follow? = none → u.act.stack.home = s.act.stack.home ∧ u.home = s.home) ∧
        u.act.epoch = s.act.epoch + 1 ∧ u.act.shadow = false ∧
        u.act.bladeEnable = (r.causes.soft && s.act.stack.mow.isSome && s.act.stack.home.isNone &&
          s.srcState srcStop = .quiet && s.srcState srcLift = .quiet && s.srcState srcTilt = .quiet && s.act.shadow) ∧
        (let w := markNotice 16 (acceptCp s);
          u.haz = (if r.causes.hasSource srcTrapped then (hazardMove srcTrapped false w).1 else w).haz) ∧
        (r.causes.hasSource srcTrapped = true → u.haz.sources[srcTrapped].cond = false) ∧ u.exe.held = none ∧
        u.env.req = { s.env.req with left := 0, right := 0 } ∧ SameConfig s u ∧ u.gate = s.gate ∧
        u.port = { (acceptCp s).port with replies := repliesWith s 9 tag (.done []) (s.act.epoch + 1) }) ∧
    (CellTakes 10 h s → (∀ r, s.act.stack.halt = some r → r.causes.blocks s.haz = true) →
      let c := if s.act.stack.halt = none then Code.state else .hazard
      exec (.resume h [tag]) s = .next (takeToken ((enterRefusal c 7 9 0 (acceptCp s)).setPort
        { (acceptCp s).port with replies := repliesWith s 9 tag (.no c 0) s.act.epoch })))

/-- R142 to R147, R153: the check order of the gate on an activity request: ABSENT, RANK and GATED with the cell index, and for a DEFER cell
DEFERRED with the order in the slot, or BUSY; an activity request is never STALE. The epoch 0 in the slot is the model's choice (log entry 22). -/
def Obligations.GateChecksActivityRequestsInOrder : Prop :=
  ∀ (i : Instr) (h : Header) (tag : Byte) (o : Order) (s : State), Requested h s →
    (i, o) ∈ [(Instr.startMow h [tag], Order.startMow), (.leaveDock h [tag], .leaveDock), (.pause h [tag], .pause),
      (.resume h [tag], .resume)] ∨ (∃ v, i = .goHome h [tag, v] ∧ o = .goHome v) ∨
      (∃ m : Byte, i = .runManoeuvre h [tag, m] ∧ o = .runManoeuvre m.toNat) →
    let c := s.tables.cell o.row s.top
    let idx := o.row.val * 6 + s.top.code
    let code := BitVec.ofNat 8 (o.row.val - 1)
    let rank := effectiveRank s.tables h.rank
    let refused := fun (e : Code) =>
      exec i s = .next (takeToken ((enterRefusal e 7 code idx (acceptCp s)).setPort
        { (acceptCp s).port with replies := repliesWith s code tag (.no e idx) s.act.epoch }))
    (c.present = false → refused .absent) ∧
    (c.present = true → c.rankLimit < rank → refused .rank) ∧
    (c.present = true → rank ≤ c.rankLimit → c.disp = .refuse → refused .gated) ∧
    (c.present = true → rank ≤ c.rankLimit → c.disp = .defer → s.gate.deferred ≠ none → refused .busy) ∧
    (c.present = true → rank ≤ c.rankLimit → c.disp = .defer → s.gate.deferred = none →
      exec i s = .next (takeToken (((acceptCp s).setGate { s.gate with
          deferred := some ⟨o, tag, rank, 0, s.act.epoch⟩ }).setPort
        { (acceptCp s).port with replies := repliesWith s code tag ⟨.deferred, idx, []⟩ s.act.epoch })))

/-! ### The stored image, RESTART -/

/-- R196, R205, R207: STORE-IMAGE and LOAD-IMAGE are refused with RANK, BUSY and, for a load, ACTIVE in that order; taken, each becomes the
operation in flight without a reply, and a store spoils the image in the memory at once. That the spoiled memory is held as no bytes is the
model's choice (log entry 3). R205, R206: a store that completes leaves its image in the memory, GOOD and VALID, and is answered DONE; one that
the memory fails leaves ABSENT and is answered RANGE, in the refusal record too. -/
def Obligations.StoresAndLoadsBeginAndStoresEnd : Prop :=
  (∀ (h : Header) (tag : Byte) (s : State), Requested h s →
    let refused := fun (i : Instr) (code : Byte) (c : Code) =>
      exec i s = .next (takeToken ((enterRefusal c 7 code 0 (acceptCp s)).setPort
        { (acceptCp s).port with replies := repliesWith s code tag (.no c 0) s.act.epoch }))
    (effectiveRank s.tables h.rank ≠ 1 →
      refused (.storeImage h [tag]) 11 .rank ∧ refused (.loadImage h [tag]) 12 .rank) ∧
    (effectiveRank s.tables h.rank = 1 → s.mgmt.op ≠ none →
      refused (.storeImage h [tag]) 11 .busy ∧ refused (.loadImage h [tag]) 12 .busy) ∧
    (effectiveRank s.tables h.rank = 1 → s.mgmt.op = none → exec (.storeImage h [tag]) s =
      .next (takeToken ((acceptCp s).setMgmt { s.mgmt with op := some ⟨.store, tag, 0⟩, mark := .bad, memory := [] }))) ∧
    (effectiveRank s.tables h.rank = 1 → s.mgmt.op = none → s.top.admitsWrites = false →
      refused (.loadImage h [tag]) 12 .active) ∧
    (effectiveRank s.tables h.rank = 1 → s.mgmt.op = none → s.top.admitsWrites = true → exec (.loadImage h [tag]) s =
      .next (takeToken ((acceptCp s).setMgmt { s.mgmt with op := some ⟨.load, tag, 0⟩ })))) ∧
  ∀ (tag : Byte) (e : Nat) (s : State), s.isReady = true → s.mgmt.op = some ⟨.store, tag, e⟩ →
    exec .storeComplete s = .next (takeToken ((s.setMgmt { s.mgmt with
        op := none, mark := .good, image := .valid, memory := s.tables.image }).setPort { s.port with
      replies := repliesWith s 11 tag (.done []) s.act.epoch })) ∧
    exec .storeFailure s = .next (takeToken ((enterRefusal .range 7 11 0
        (s.setMgmt { s.mgmt with op := none, mark := .absent })).setPort { s.port with
      replies := repliesWith s 11 tag (.no .range 0) s.act.epoch }))

/-- R208: the four outcomes of a completed load. Where the tables are replaced, the blocks take the side effects that `LoadedTablesActOnTheBlocks`
states of `replaceTables`; a refused load leaves all but the mark and enters its refusal. What the memory holds after the read is the model's
choice (log entries 3 and 29). -/
def Obligations.LoadCompletesInOneOfFourWays : Prop :=
  ∀ (a : MemoryRead) (tag : Byte) (e : Nat) (s : State), s.isReady = true → s.mgmt.op = some ⟨.load, tag, e⟩ →
    let image := match a with
      | .noAnswer => none
      | .held => some s.mgmt.memory
      | .bytes l => some l
    let refused := fun (c : Code) (m : Mgmt) => exec (.loadComplete a) s = .next (takeToken ((enterRefusal c 7 12 0 (s.setMgmt m)).setPort
      { s.port with replies := repliesWith s 12 tag (.no c 0) s.act.epoch }))
    match image with
    | none => refused .range { s.mgmt with op := none, mark := .absent }
    | some l => match checkImage (chainFloor s) l with
      | none => refused .range { s.mgmt with op := none, mark := .bad, memory := l }
      | some (tb, clamped) =>
        (s.top.admitsWrites = false → refused .active { s.mgmt with op := none, mark := .good, memory := l }) ∧
        (s.top.admitsWrites = true → ∃ u, exec (.loadComplete a) s = .next (takeToken u) ∧ u.tables = tb ∧
          u.mgmt = { s.mgmt with op := none, mark := .good, image := .valid, memory := l } ∧ u.pins = s.pins ∧ u.pending = s.pending ∧
          u.port = { s.port with
            replies := repliesWith s 12 tag ⟨if clamped then .clamped else .done, 0, []⟩ u.act.epoch } ∧
          u = (replaceTables tb (s.setMgmt u.mgmt)).setPort u.port)

/-- R208, R201, R32, with R4, R7, R37, R39, R48, R82, R86, R87, R94, R120, R159, R177: what the replacement of all tables does to the blocks. It is
the side effect of every entry, as the statement about written entries gives each, with one re-evaluation when the coil and loop entries have been
reset: every tracker and cell is as at the start, every intake record too but for the first-frame mark, the outputs are none, inside and lost, every
node is PENDING, every drive record new with the start tokens queued, the conditions of drives and silent nodes are false, the caps follow the new
tables. Under a top that takes a load, with nothing waiting, no condition true and no WIRE-LOST to fire, nothing else changes. That the outputs are
re-evaluated after the last loop entry is read from R32 and R201 (log entry 36); the order of the derivations is log entry 37. That a new drive
record holds the last status 0 behind its clear taken mark (`freshDriveRec`) is the model's choice (log entry 2), and that each response of one load advances the epoch on its own is its reading (log entry
17). -/
def Obligations.LoadedTablesActOnTheBlocks : Prop :=
  ∀ (t : Tables) (s : State), let u := replaceTables t s
    let old := s.tables
    let was := fun (l : Fin 8) => s.dec.trackers[l].state = .locked ∨ s.dec.trackers[l].state = .fading
    let written := fun (ids : List (TableId × Nat)) (v : State) => ids.foldl (fun v x => entryWritten x.1 x.2 old true v) v
    let coils := (List.range 4).map fun k => (TableId.coil, k)
    let loops := (List.range 8).map fun k => (TableId.loop, k)
    let delay := t.sensor.wireDelay
    u.tables = t ∧
    u = written (allEntries.filter fun x => x.1 ≠ .coil ∧ x.1 ≠ .loop) (reevaluate (written (coils ++ loops) (s.setTables t))) ∧
    u.dec = { freshDecoder t with intakes := u.dec.intakes } ∧
    (∀ c : Fin 4, u.dec.intakes[c] = ⟨none, 0, t.coil[c].present && (s.dec.intakes[c].awaiting ||
      (old.coil[c].present && decide (t.coil[c].node ≠ old.coil[c].node)))⟩) ∧
    ((∃ l, was l) → u.haz.pending.getLsbD 18 = true) ∧ u.home.guideView = none ∧
    (s.dec.n = s.env.n → u.env.n = none ∧ u.env.caps.proximity = (t.band 0 0).cap) ∧
    (s.dec.outside = true → u.haz.sources[srcOutside].cond = false) ∧
    (s.dec.wireLost = true → u.haz.wireDelay = s.haz.wireDelay) ∧
    (s.dec.wireLost = false → u.haz.wireDelay = (if delay = 0 then none else some delay) ∧
      (delay = 0 → u.haz.sources[srcWireLost].cond = true)) ∧
    (∀ n : Fin 8, u.haz.nodes[n] = (t.nodePeriod n).map fun p => ⟨.pending, some (3 * p)⟩) ∧
    u.haz.sources[srcSensorSilent].cond = false ∧
    (∀ d : Drive, u.dp.recOf d = freshDriveRec ∧ (t.mapped d = false → ∀ x ∈ u.dp.queue, x.drive ≠ d)) ∧
    (∀ w, t.mapped (.wheel w) = true → .wheelBrake w ∈ u.dp.queue) ∧ (∀ b, t.mapped (.blade b) = true → .bladeStop b ∈ u.dp.queue) ∧
    u.env.percents = ⟨0, 0, 0⟩ ∧ u.dp.fault = false ∧ u.dp.overload = false ∧ u.dp.stallLeft = false ∧ u.dp.stallRight = false ∧
    (∀ x ∈ [(srcStallLeft, s.dp.stallLeft), (srcStallRight, s.dp.stallRight), (srcOverload, s.dp.overload), (srcDriveFault, s.dp.fault)],
      s.haz.sources[x.1].cond = x.2 → u.haz.sources[x.1].cond = false) ∧
    u.dp.cycle = s.dp.cycle ∧ u.dp.replyTimer = s.dp.replyTimer ∧ u.dp.refreshTimer = s.dp.refreshTimer ∧
    u.env.caps.slope = (t.band 1 3).cap ∧ u.env.caps.activity = (match u.top with
      | .idle => t.home.capIdle | .mow => t.home.capMow | .follow => t.home.capFollow | .escape => t.home.capEscape
      | .docked | .halt => 0) ∧ u.env.k = u.env.caps.effective ∧
    (∀ i : Fin 16, (old.hazard[i].enabled = true → t.hazard[i].enabled = false →
        u.srcState i = .quiet ∧ u.haz.sources[i].owed = false) ∧
      (old.hazard[i].response = .escape → t.hazard[i].response ≠ .escape → u.haz.sources[i].owed = false)) ∧
    (∀ i ∈ [srcBumpLeft, srcBumpRight, srcRain, srcLinkSilent], old.hazard[i].enabled = false → t.hazard[i].enabled = true →
      s.haz.sources[i].cond = true → s.srcState i = .quiet → u.haz.pending.getLsbD i.val = true) ∧
    u.port = s.port ∧ u.mgmt = s.mgmt ∧ u.pins = s.pins ∧ u.pending = s.pending ∧ u.haz.kept = s.haz.kept ∧
    (s.top.admitsWrites = true → (∀ i : Fin 16, s.haz.sources[i].cond = false) → (∀ n : Fin 8, nodeSilent s.haz n = false) →
      (∀ d : Drive, s.dp.recOf d = freshDriveRec) → (s.dec.wireLost = true ∨ delay ≠ 0) →
      u.act = s.act ∧ u.exe = s.exe ∧ u.gate = s.gate ∧ u.env.req = s.env.req ∧ u.home = { s.home with guideView := none } ∧
      u.reports = s.reports ∧ ∀ i : Fin 16, u.haz.sources[i].cond = false ∧ (t.hazard[i].enabled = true → u.srcState i = s.srcState i))

/-- R209, R210, R204: a RESTART at rank 1 brings the READY settings of every block with the tables in use, or with the built-in tables when it
abandons a load; its own DONE is the one reply left, and a frame on CP is cut off. A STOP button that is down pushes HALT {STOP} over [IDLE], as at
the end of start-up. That the kept samples, the last statuses, pitch, roll and the heading baseline behind their clear marks hold 0 or none
(`AtReady`) is the model's choice (log entry 2). -/
def Obligations.RestartBringsReadyAgain : Prop :=
  ∀ (h : Header) (tag : Byte) (s : State), Requested h s →
    (effectiveRank s.tables h.rank ≠ 1 →
      exec (.restart h [tag]) s = .next (takeToken ((enterRefusal .rank 7 13 0 (acceptCp s)).setPort
        { (acceptCp s).port with replies := repliesWith s 13 tag (.no .rank 0) s.act.epoch }))) ∧
    (effectiveRank s.tables h.rank = 1 → ∃ t, exec (.restart h [tag]) s = .next t ∧
      ((∀ o, s.mgmt.op = some o → o.kind ≠ .load) → t.tables = s.tables ∧ t.mgmt = { s.mgmt with op := none }) ∧
      (∀ o, s.mgmt.op = some o → o.kind = .load →
        t.tables = builtinTables ∧ t.mgmt = { s.mgmt with op := none, image := .defaults }) ∧
      t.pins = { s.pins with stopLatch := false } ∧ t.pending = s.pending ∧
      t.port = { s.port with
        replies := [⟨13, tag, .done, 0, t.act.epoch, 0, [[]]⟩], line := s.port.line.cut, mirrors := []
        rxCp := .idle, rxSp := .idle, rxDp := .idle, liveness := some t.tables.timing.liveness } ∧
      (((s.pins.stopLow || s.pins.stopLatch) = true → FixedSources s.tables) →
        AtReady s.pins.stopLow (s.pins.stopLow || s.pins.stopLatch) t))

/-! ### The device's own events -/

/-- An expiry command is taken whenever its timer runs, whatever its remaining time (the model's choice, log entry 5, here and in the
statements that follow). R15, R18, R127: a fade expiry takes the loop to SEARCH, empties its four cells, makes LOOP pending, takes a FOLLOW on
that loop back to SEEK with the wheels still, and re-evaluates the outputs. R86, R87, R17, R19, R36, R121, R127, R128: a node's deadline makes it
SILENT and SENSOR-SILENT true; a coil's makes its FRESH cells STALE, takes the LOCKED trackers it is the reference of to FADING and the run of
SEARCH ones to 0, at the front coil drops a guide view from a FRESH cell and stands the wheels of a FOLLOW still, and re-evaluates the outputs;
the inclination node's gives the slope cap of band 3; the power node's takes CONTACT back to APPROACH. That these effects come before the outputs
and SENSOR-SILENT are handed over is the model's choice (log entry 38). R78, R94, R188: a hold expiry takes a HELD source to QUIET and marks
its notice, nothing else; the wire-lost delay makes WIRE-LOST true, the liveness timer LINK-SILENT, and each timer stops. Each of these conditions
moves its source and fires its response as `setCondition` says (R77, R79). That the responses of one expiry, of OUTSIDE, WIRE-LOST and
SENSOR-SILENT, are events of their own, each with its own advance of the epoch, is the model's reading (log entry 17). -/
def Obligations.TimerExpiriesOfDecoderAndMonitor : Prop :=
  ∀ s : State, s.isReady = true → let guide := s.tables.home.guide
    (∀ (l : Fin 8) (n : Nat), s.dec.trackers[l].state = .fading → s.dec.trackers[l].fade = some n →
      ∃ t v, exec (.fadeTimerExpiry l) s = .next t ∧ t = takeToken (reevaluate v) ∧
        v.dec = { t.dec with n := s.dec.n, outside := s.dec.outside, wireLost := s.dec.wireLost } ∧ v.haz = (markNotice 18 s).haz ∧
        t.dec.trackers[l] = { s.dec.trackers[l] with state := .search, cand := 0, run := 0, lose := 0, fade := none } ∧
        (∀ c : Fin 4, t.dec.cell l c = emptyCell) ∧ (∀ l' : Fin 8, l' ≠ l → t.dec.trackers[l'] = s.dec.trackers[l'] ∧
          ∀ c : Fin 4, t.dec.cell l' c = s.dec.cell l' c) ∧ t.haz.pending.getLsbD 18 = true ∧
        v.home.guideView = (if l = guide then none else s.home.guideView) ∧
        (∀ r, s.top = .follow → s.act.stack.follow? = some r → r.loop = l →
          v.env.req = { s.env.req with left := 0, right := 0 } ∧
          (r.phase ≠ .seek → v.home.reported = false ∧
            v.act.stack.follow? = some { r with phase := .seek, loop := s.tables.home.perimeter, confirm := 0 })) ∧
        (s.top ≠ .follow ∨ (∀ r ∈ s.act.stack.follow?, r.loop ≠ l) → v.act = s.act ∧ v.env = s.env) ∧
        v.exe = s.exe ∧ v.gate = s.gate ∧ v.reports = s.reports ∧
        t.dec.intakes = s.dec.intakes ∧
        t.tables = s.tables ∧ t.mgmt = s.mgmt ∧ t.port = s.port ∧ t.pins = s.pins ∧ t.pending = s.pending) ∧
    (∀ (n : Fin 8) (r : NodeRec) (d : Nat), s.haz.nodes[n] = some r → r.deadline = some d →
      ∃ t, exec (.nodeDeadlineExpiry n) s = .next t ∧ t.haz.nodes[n] = some ⟨.silent, none⟩ ∧
        (∀ n' : Fin 8, n' ≠ n → t.haz.nodes[n'] = s.haz.nodes[n']) ∧ t.haz.sources[srcSensorSilent].cond = true ∧
        (∀ (l : Fin 8) (c : Fin 4), t.dec.cell l c =
          if coilNode c = n ∧ (s.dec.cell l c).mark = .fresh then { s.dec.cell l c with mark := .stale } else s.dec.cell l c) ∧
        (∀ l : Fin 8, t.dec.trackers[l] =
          if s.tables.loop[l].enabled = true ∧ coilNode s.tables.loop[l].refCoil = n then match s.dec.trackers[l].state with
            | .locked => { s.dec.trackers[l] with state := .fading, lose := 0, fade := some s.tables.loop[l].fadeTime }
            | .search => { s.dec.trackers[l] with run := 0 }
            | .fading | .off => s.dec.trackers[l]
          else s.dec.trackers[l]) ∧
        (n = 4 → t.env.caps.slope = (s.tables.band 1 3).cap) ∧
        (4 ≤ n.val → t.dec = s.dec) ∧
        (∃ v, t = takeToken (setCondition srcSensorSilent true v) ∧ v.haz.nodes = t.haz.nodes ∧
          v.haz.sources[srcSensorSilent].cond = s.haz.sources[srcSensorSilent].cond ∧
          (4 ≤ n.val → v.haz = { s.haz with nodes := v.haz.nodes } ∧ v.gate = s.gate ∧ v.exe = s.exe ∧
            v.env.req = s.env.req ∧ v.reports = s.reports) ∧ (4 < n.val → v.env = s.env) ∧
          (n ≠ 6 → 4 ≤ n.val → v.act = s.act ∧ v.home = s.home) ∧
          (n = 6 → (∀ r, s.top = .follow → s.act.stack.follow? = some r → r.phase = .contact →
              v.act = { s.act with stack := { s.act.stack with home := some (.follow { r with phase := .approach, confirm := 0 }) } } ∧
              v.home = { s.home with reported := false }) ∧
            ((s.top ≠ .follow ∨ ∀ r ∈ s.act.stack.follow?, r.phase ≠ .contact) → v.act = s.act ∧ v.home = s.home)) ∧
          ∀ c : Fin 4, coilNode c = n → ∃ w, v = reevaluate w ∧ w.act = s.act ∧ w.exe = s.exe ∧ w.haz = { s.haz with nodes := t.haz.nodes } ∧
            w.tables = s.tables ∧ w.reports = s.reports ∧
            w.dec = { t.dec with n := s.dec.n, outside := s.dec.outside, wireLost := s.dec.wireLost } ∧
            w.env.req = (if s.tables.frontCoil = some c ∧ s.top = .follow then { s.env.req with left := 0, right := 0 }
              else s.env.req) ∧
            w.home = { s.home with guideView :=
              if s.tables.frontCoil = some c ∧ (s.dec.cell guide c).mark = .fresh then none else s.home.guideView }) ∧
        t.haz.kept = s.haz.kept ∧ t.dec.intakes = s.dec.intakes ∧ t.tables = s.tables ∧ t.mgmt = s.mgmt ∧ t.port = s.port ∧
        t.pins = s.pins ∧ t.pending = s.pending) ∧
    (∀ (i : Fin 16) (n : Nat), s.srcState i = .held → s.haz.sources[i].hold = some n →
      ∃ u, exec (.holdTimerExpiry i) s = .next (takeToken u) ∧
        u.haz.sources[i] = { s.haz.sources[i] with state := .quiet, hold := none } ∧
        (∀ j : Fin 16, j ≠ i → u.haz.sources[j] = s.haz.sources[j]) ∧
        u.haz.pending = s.haz.pending ||| BitVec.twoPow 20 i.val ∧ u.act = s.act ∧ u.env.req = s.env.req ∧ u.exe = s.exe ∧
        u.home = s.home ∧ u.gate = s.gate ∧ u.port = s.port ∧ SameConfig s u) ∧
    (∀ n, s.haz.wireDelay = some n → ∃ t, exec .wireLostDelayExpiry s = .next t ∧ t.haz.wireDelay = none ∧
      t = takeToken (setCondition srcWireLost true (s.setHaz { s.haz with wireDelay := none })) ∧
      t.haz.sources[srcWireLost].cond = true ∧ t.port = s.port ∧ SameConfig s t) ∧
    (∀ n, s.port.liveness = some n → ∃ t, exec .livenessTimerExpiry s = .next t ∧ t.port = { s.port with liveness := none } ∧
      t = takeToken (setCondition srcLinkSilent true (s.setPort { s.port with liveness := none })) ∧
      t.haz.sources[srcLinkSilent].cond = true ∧ SameConfig s t)

/-- R109, R111, R112, R113: the step timer ends a TIME step, so that the next step starts or completion is reported, and fails a DIST or TURN
step, so that the manoeuvre restarts with one more in its chain count or a trap is reported. -/
def Obligations.StepTimerEndsOrFailsTheStep : Prop :=
  ∀ (r : EscRec) (x : StepTimer) (s : State), s.isReady = true → s.running? = some r → s.exe.timer = some x →
    let st := s.tables.step r.man r.step
    ∃ u, exec .stepTimerExpiry s = .next (takeToken u) ∧ u.act.epoch = s.act.epoch ∧ u.act.bladeEnable = s.act.bladeEnable ∧
      u.act.stack.mow = s.act.stack.mow ∧ u.act.stack.home = s.act.stack.home ∧ u.act.stack.halt = s.act.stack.halt ∧
      u.haz = s.haz ∧ u.gate = s.gate ∧ u.port = s.port ∧ u.home = s.home ∧ SameConfig s u ∧
      (st.kind = .time → r.step.val + 1 < s.tables.counts[r.man] → StepStarts r (r.step + 1) r.chain s u) ∧
      (st.kind = .time → s.tables.counts[r.man] ≤ r.step.val + 1 → EscapeEnds { r with elapsed := x.run } (.completion r.entry) s u) ∧
      (st.kind ≠ .time → r.chain + 1 < s.tables.home.chainLimit → StepStarts r 0 (r.chain + 1) s u) ∧
      (st.kind ≠ .time → s.tables.home.chainLimit ≤ r.chain + 1 → EscapeEnds { r with elapsed := x.run } (.trap r.entry) s u)

/-- R52, R67, R69, R114, R117: a completion report that names the ESCAPE on top pops it, a trap report makes HALT {TRAPPED} of it, a STOP step
start clears blade-enable; a report that names no ESCAPE on top is dropped. R53, R67, R77: the epoch that advances makes ACTIVITY pending, and a trap
moves TRAPPED; no other mark and no other source moves. -/
def Obligations.ExecutorReportsReachTheStack : Prop :=
  ∀ (e : Byte) (rest : List Report) (s : State), s.isReady = true →
    (∀ r, s.reports = .completion e :: rest → s.top = .escape → s.act.stack.esc = some r → r.entry = e → NothingWaits s →
      ∃ u, exec .escapeCompletionReport s = .next (takeToken u) ∧ u.reports = rest ∧ u.act.stack.esc = none ∧
        u.act.stack.halt = none ∧ u.act.stack.mow = s.act.stack.mow ∧
        u.act.stack.home.isSome = s.act.stack.home.isSome ∧ u.act.epoch = s.act.epoch + 1 ∧
        u.act.bladeEnable = s.act.bladeEnable ∧ u.exe.held = none ∧ u.exe.timer = none ∧ u.haz = (markNotice 16 s).haz ∧
        u.env.req = { s.env.req with left := 0, right := 0 } ∧ SameConfig s u ∧ u.gate = s.gate ∧ u.port = s.port) ∧
    (∀ r, s.reports = .trap e :: rest → s.top = .escape → s.act.stack.esc = some r → r.entry = e → NothingWaits s →
      ∃ u, exec .trapReport s = .next (takeToken u) ∧ u.reports = rest ∧
        u.act = haltedOver { s.act.stack with esc := none } (.source srcTrapped) s.act ∧
        u.haz = (hazardMove srcTrapped true (markNotice 16 s)).1.haz ∧
        u.haz.sources[srcTrapped].cond = true ∧ u.exe.held = none ∧ u.exe.timer = none ∧
        u.env.req = { s.env.req with left := 0, right := 0 } ∧ SameConfig s u ∧ u.gate = s.gate ∧ u.port = s.port) ∧
    (s.reports = .stopStepStart :: rest → ∃ u, exec .stopStepStart s = .next (takeToken u) ∧ u.reports = rest ∧
      u.act = { s.act with bladeEnable := false } ∧ u.env.req = s.env.req ∧ u.exe = s.exe ∧ u.haz = s.haz ∧
      u.gate = s.gate ∧ u.port = s.port ∧ u.home = s.home ∧ SameConfig s u) ∧
    ((∀ r, s.act.stack.esc = some r → s.top = .escape → r.entry ≠ e) →
      (s.reports = .completion e :: rest → exec .escapeCompletionReport s = .next (takeToken (s.setReports rest))) ∧
      (s.reports = .trap e :: rest → exec .trapReport s = .next (takeToken (s.setReports rest))))

/-- R162, R163, R166, R168, R170: the end of a send starts the wait and the reply timer; the reply timer ends the wait and counts a miss, the third
making the node UNRESPONSIVE; where no mapped drive holds the in-flight address, the wait ends and no miss is counted (R168, R177); the refresh
queues the speed of every mapped wheel and blade and starts again. That the device keeps the address of the node whose wait the expiry has ended,
for a reply that came together with it, is the model's choice (log entry 41), and so is that the miss falls on the drive that holds the in-flight
address at the expiry where a write has moved the one in flight (log entry 46), and so is that a SPEED token in flight joins at its place in the
order of the refresh (log entry 48). R93, R174 to R176: after a miss the four drive conditions are formed anew and reach their sources. -/
def Obligations.DrivePortTimersAndSends : Prop :=
  ∀ s : State, s.isReady = true →
    (∀ f, s.dp.cycle = .sending f → exec .sendComplete s = .next (s.setDp { s.dp with
      cycle := .awaitReply f, replyTimer := some s.tables.timing.replyTimeout, raced := none })) ∧
    (∀ f n d, s.dp.cycle = .awaitReply f → s.dp.replyTimer = some n → s.tables.driveAt f.address = some d →
      ∃ t, exec .replyTimerExpiry s = .next t ∧ t.dp.replyTimer = none ∧ t.dp.raced = some f.address ∧ (∀ g, t.dp.cycle ≠ .awaitReply g) ∧
        (t.dp.recOf d).miss = min 255 ((s.dp.recOf d).miss + 1) ∧
        ((t.dp.recOf d).state = if 3 ≤ min 255 ((s.dp.recOf d).miss + 1) then .unresponsive else (s.dp.recOf d).state) ∧
        ((t.dp.recOf d).stallRun, (t.dp.recOf d).overRun) = (if (s.dp.recOf d).state ≠ .unresponsive ∧ 3 ≤ min 255 ((s.dp.recOf d).miss + 1)
          then (0, 0) else ((s.dp.recOf d).stallRun, (s.dp.recOf d).overRun)) ∧
        (∀ d', d' ≠ d → t.dp.recOf d' = s.dp.recOf d') ∧ DriveConditionsFormed s t ∧ t.port = s.port ∧ SameConfig s t) ∧
    (∀ f n, s.dp.cycle = .awaitReply f → s.dp.replyTimer = some n → s.tables.driveAt f.address = none →
      let u := takeToken (s.setDp { s.dp with cycle := .idle, replyTimer := none })
      exec .replyTimerExpiry s = .next (u.setDp { u.dp with raced := some f.address })) ∧
    (∀ n, s.dp.refreshTimer = some n → ∃ u, exec .refreshTimerExpiry s = .next (takeToken u) ∧
      (∀ w, s.tables.mapped (.wheel w) = true → .wheelSpeed w ∈ u.dp.queue) ∧
      (∀ b, s.tables.mapped (.blade b) = true → .bladeSpeed b ∈ u.dp.queue) ∧
      u.dp.queue = s.dp.queue ++ [Token.wheelSpeed .left, .wheelSpeed .right, .bladeSpeed .bladeA, .bladeSpeed .bladeB, .bladeSpeed .bladeC].filter
        (fun x => s.tables.mapped x.drive && !s.dp.queue.contains x) ∧
      u = s.setDp { s.dp with queue := u.dp.queue, refreshTimer := some s.tables.timing.refresh })

/-- R97, R164, R165, R190, R191: with the CP line free the arbiter sends the oldest reply's next frame, else in READY a notice of the lowest pending
source, which clears its pending mark and, for a hazard source, its raised-since mark, else the oldest mirror, else nothing; the DP master takes the
oldest BRAKE or STOP, else the oldest token, and sends its held value. That the arbiter picks in CP_LINE_FREE alone is the model's reading (log
entry 11). R18, R53, R98, R134, R155, R165, R192, R211: the payloads of the reply frames, of the notices and of the DP frames, byte by byte as
sections 11.2 and 11.3 give them. The bytes of a REFUSAL notice behind the mark of an empty record are free (log entry 6), and a stopped timer, as
any item the manual leaves open, goes as log entry 10 says. The value of a STALL-LEFT or STALL-RIGHT notice that finds the wheel's record reset, and
no last status in it (R161), is 0, which is the model's choice (log entry 53). -/
def Obligations.ArbiterAndTokenOrder : Prop :=
  (∀ s : State, s.live = true →
    (∀ r rest c cs, s.port.replies = r :: rest → r.chunks = c :: cs → ∃ u, exec .cpLineFree s = .next (takeToken u) ∧
      u.port.line = .sending (.reply cs.isEmpty) (replyFrame r r.next cs.isEmpty c) ∧
      u.port.replies = (if cs.isEmpty then rest else { r with next := r.next + 1, chunks := cs } :: rest) ∧
      u.haz = s.haz ∧ u.port.mirrors = s.port.mirrors ∧ u.act = s.act ∧ u.env = s.env ∧ SameConfig s u) ∧
    (∀ i : Fin 20, s.port.replies = [] → s.mgmt.startup = .ready → s.haz.pending.getLsbD i.val = true →
      (∀ j : Fin 20, j < i → s.haz.pending.getLsbD j.val = false) → ∃ u, exec .cpLineFree s = .next (takeToken u) ∧
        u.port.line = .sending (.notice i) (frameBytes 9 (ownHeader 1 s.act.epoch) (noticePayload i s).1) ∧
        u.haz.pending = s.haz.pending &&& ~~~BitVec.twoPow 20 i.val ∧
        (∀ j : Fin 16, u.haz.sources[j] =
          if j.val = i.val then { s.haz.sources[j] with raisedSince := false } else s.haz.sources[j]) ∧
        u.haz.nodes = s.haz.nodes ∧ u.haz.kept = s.haz.kept ∧ u.haz.wireDelay = s.haz.wireDelay ∧ u.port.mirrors = s.port.mirrors ∧
        u.fresh = (noticePayload i s).2.fresh ∧
        u.port.replies = [] ∧ u.act = s.act ∧ u.env = s.env ∧ u.gate = s.gate ∧ u.tables = s.tables) ∧
    (∀ m ms, s.port.replies = [] → s.mgmt.startup = .ready → s.haz.pending = 0 → s.port.mirrors = m :: ms →
      exec .cpLineFree s = .next (takeToken (s.setPort { s.port with line := .sending .mirror m, mirrors := ms }))) ∧
    (s.port.replies = [] → s.haz.pending = 0 → s.port.mirrors = [] →
      exec .cpLineFree s = .next (takeToken (s.setPort { s.port with line := .free })))) ∧
  (∀ (q : List Token) (x : Token), nextToken q = some x → x ∈ q ∧ ((∃ y ∈ q, y.urgent = true) → x.urgent = true) ∧
    ∃ before after, q = before ++ x :: after ∧ ∀ y ∈ before, x.urgent = true ∧ y.urgent = false) ∧
  (∀ (q : Token) (s : State), s.isReady = true → s.dp.cycle = .idle → nextToken s.dp.queue = some q →
    (takeToken s).dp.queue = s.dp.queue.filter (fun x => x ≠ q) ∧ ∃ f, (takeToken s).dp.cycle = .sending f ∧ f.token = q ∧
      f.address = (s.tables.driveOf q.drive).node ∧
      f.frame = frameBytes 5 (ownHeader f.address s.act.epoch) (tokenPayload s.env.held q)) ∧
  (∀ (v : DriveValues) (b : Blade), tokenPayload v (.wheelSpeed .left) = [1] ++ bytesOf 2 v.left ∧
    tokenPayload v (.wheelSpeed .right) = [1] ++ bytesOf 2 v.right ∧ (∀ w, tokenPayload v (.wheelBrake w) = [6]) ∧
    tokenPayload v (.bladeSpeed b) = [2] ++ bytesOf 2 (v.blades.get b) ∧ tokenPayload v (.bladeStart b) = [3] ∧
    tokenPayload v (.bladeStop b) = [4] ∧ tokenPayload v .height = [5] ++ bytesOf 1 v.deck) ∧
  (∀ node epoch : Byte, ownHeader node epoch = { rank := 0, origin := true, bit0 := false, node := node, epoch := epoch }) ∧
  (∀ (r : Reply) (n : Byte) (last : Bool) (chunk : List Byte), replyFrame r n last chunk = frameBytes 8 (ownHeader 1 r.epoch)
    ([r.request, r.tag] ++ codeOf codeRow r.code ++ bytesOf 1 r.offset ++ bytesOf 1 (128 * last.toNat + n.toNat % 128 : Nat) ++ chunk)) ∧
  (∀ (i : Fin 16) (s : State), let r := s.haz.sources[i]
    let x := s.tables.hazard[i]
    let bad := fun (d : Drive) =>
      s.tables.mapped d = true ∧ ((s.dp.recOf d).state = .unresponsive ∨ (s.dp.recOf d).state = .faulted)
    let address := fun (n : Fin 8) => (s.tables.nodeAddress n).toNat
    let load := fun (b : Blade) => if s.tables.mapped (.blade b) then s.env.percents.get b else 0
    ∃ value : Option Int,
      noticePayload (sourceNotice i) s = (bytesOf 1 i.val ++ codeOf [SrcState.quiet, .raised, .held] r.state ++ flagOf r.raisedSince ++
        bytesOf 1 (r.cond.toNat + 2 * x.enabled.toNat + 4 * r.owed.toNat : Nat) ++
        codeOf [Response.note, .slow, .escape, .ret, .halt] x.response ++ timeLeft r.hold ++ twoOrNone value, s) ∧
      (i = srcStop → value = some s.pins.stopLow.toNat) ∧
      (i ∈ [srcLift, srcBumpLeft, srcBumpRight] → value = some s.haz.kept.contact.toNat) ∧
      (i = srcTilt → value = some (max s.env.pitch.natAbs s.env.roll.natAbs : Nat)) ∧
      (i = srcStallLeft → value = some (s.dp.recOf (.wheel .left)).status.speed) ∧
      (i = srcStallRight → value = some (s.dp.recOf (.wheel .right)).status.speed) ∧
      (i = srcOverload → value = some (max (load .bladeA) (max (load .bladeB) (load .bladeC)) : Nat)) ∧
      (i = srcOutside → value = s.dec.n) ∧ (i = srcWireLost → value = some (s.haz.wireDelay.getD 0 : Nat)) ∧
      (i = srcLinkSilent → value = some 0) ∧
      (i = srcDriveFault → (∀ d, bad d → (∀ d', bad d' → d.idx ≤ d'.idx) → value = some d.idx.val) ∧ ((∀ d, ¬bad d) → value = none)) ∧
      (i = srcSensorSilent → ((∀ n, nodeSilent s.haz n = false) → value = none) ∧ ∀ n, nodeSilent s.haz n = true →
        (∀ n', nodeSilent s.haz n' = true → address n ≤ address n') → value = some (address n)) ∧
      (i = srcRain → value = some s.haz.kept.wetness) ∧ (i = srcBatteryLow → value = some s.haz.kept.power.percent) ∧
      (i = srcTrapped → value = some s.tables.home.chainLimit)) ∧
  ∀ s : State, let p := s.haz.kept.power
    let docked := s.act.stack.docked?
    noticePayload 16 s = ([16, 0, 0] ++ codeOf [Kind.idle, .mow, .follow, .docked, .escape, .halt] s.top ++
      bytesOf 1 s.act.stack.records.length ++ [s.act.epoch], s) ∧
    (∀ r, s.gate.refusal = some r → noticePayload 17 s = ([17, 0, 0] ++
      codeOf codeRow r.reason ++ bytesOf 1 r.cls ++ [r.kind] ++ bytesOf 1 r.detail ++ bytesOf 1 r.further, s)) ∧
    (s.gate.refusal = none → noticePayload 17 s = ([17, 0, 0, 0xFF, Config.freeByte s.fresh, Config.freeByte (s.fresh + 1),
      Config.freeByte (s.fresh + 2), Config.freeByte (s.fresh + 3)], s.setFresh (s.fresh + 4))) ∧
    (∃ loops : Vector Byte 8, noticePayload 18 s = ([18, 0, 0] ++ loops.toList, s) ∧ ∀ l : Fin 8, let x := s.dec.trackers[l]
      loops[l].extractLsb' 0 4 = BitVec.ofNat 4 x.rho.val ∧
        [loops[l] >>> 4] = codeOf [TrackState.off, .search, .locked, .fading] x.state) ∧
    noticePayload 19 s = ([19, 0, 0] ++ bytesOf 1 (docked.isSome.toNat + 2 * (docked.map DockedRec.contact == some true).toNat +
      4 * s.home.ready.toNat + 8 * p.charging.toNat : Nat) ++ byteOrNone s.home.lastPercent ++ bytesOf 2 p.currentMa ++ bytesOf 2 p.dockMv, s)
end

