-- ==== Sys2Proof/Laws/Arrival.lean ====
section
/-! SUPPORT. The arrival of a sample in the words of the statements: what `arrive` does at a present node. -/

namespace Sys2Proof.Machine

/-- R87: SENSOR-SILENT is formed true exactly when some node is SILENT. -/
theorem sensorSilentCond_eq (h : HazardMonitor) : sensorSilentCond h = decide (∃ m : Fin 8, nodeSilent h m = true) := by
  rw [Bool.eq_iff_iff, decide_eq_true_iff, sensorSilentCond, List.any_eq_true]
  exact ⟨fun ⟨m, _, hm⟩ => ⟨m, hm⟩, fun ⟨m, hm⟩ => ⟨m, List.mem_finRange m, hm⟩⟩

/-- R85, R87: at a present node an arrival is `arrived` with the period of the tables. -/
theorem arrive_eq_arrived (n : Fin 8) (p : Nat) (s : State) (h : s.tables.nodePeriod n = some p) : arrive n s = arrived n p s := by
  simp only [arrive, h, arrived, formSensorSilent, sensorSilentCond_eq, setNode]

end Sys2Proof.Machine
end

