-- ==== Sys2Proof/Laws/Bytes.lean ====
section
/-! SUPPORT. The bytes of an item: the encodings the machine uses (`enc1` to `encOpt2`, the code functions) are the items of sections 11.2 and 11.3
as the statements write them (`bytesOf` and what is built on it). -/

namespace Sys2Proof.Machine

theorem enc1_eq_bytesOf (x : Int) : enc1 x = bytesOf 1 x := rfl

theorem enc2_eq_bytesOf (x : Int) : enc2 x = bytesOf 2 x := by
  simp only [enc2, bytesOf, List.cons.injEq, and_true]
  constructor <;> apply BitVec.eq_of_toNat_eq <;> simp [BitVec.toNat_ofInt, Nat.shiftRight_eq_div_pow] <;> omega

theorem enc4_eq_bytesOf (n : Nat) : enc4 n = bytesOf 4 n := by
  simp only [enc4, bytesOf, List.cons.injEq, and_true]
  refine ⟨?_, ?_, ?_, ?_⟩ <;> apply BitVec.eq_of_toNat_eq <;> simp [BitVec.toNat_ofInt, Nat.shiftRight_eq_div_pow] <;> omega

theorem encFlag_eq_flagOf (b : Bool) : encFlag b = flagOf b := by cases b <;> rfl

theorem encOpt1_eq_byteOrNone (o : Option Nat) : encOpt1 o = byteOrNone o := by cases o <;> rfl

theorem encOpt2_eq_twoOrNone (o : Option Int) : encOpt2 o = twoOrNone o := by
  cases o with
  | none => rfl
  | some x => exact enc2_eq_bytesOf x

theorem remaining_eq_timeLeft (t : Option Nat) : enc2 (remaining t) = timeLeft t := enc2_eq_bytesOf _

/-- `n` bytes are `n` bytes. -/
theorem bytesOf_length (n : Nat) (x : Int) : (bytesOf n x).length = n := by
  induction n generalizing x with
  | zero => rfl
  | succ n ih => simp [bytesOf, ih]

/-- The code of a reply or a refusal is its place in the row of the reply codes, STALE last (section 11.2). -/
theorem codeNum_eq_codeOf (c : Code) : enc1 c.num = codeOf codeRow c := by
  cases c <;> rfl

/-- The code of a token is its place in the order of R163. -/
theorem tokenCode_eq_codeOf (t : Token) : enc1 t.code = codeOf tokenRow t := by
  rcases t with w | w | b | b | b | _ <;> first | rfl | (cases w <;> rfl) | (cases b <;> rfl)

end Sys2Proof.Machine
end

