-- ==== Sys2Proof/Laws/State.lean ====
section
/-! SUPPORT. What the update of each block does to each field of the state. -/

namespace Sys2Proof.Machine

variable (s : State)

@[simp] theorem State.setTables_tables (x : Tables) : (s.setTables x).tables = x := rfl
@[simp] theorem State.setTables_dec (x : Tables) : (s.setTables x).dec = s.dec := rfl
@[simp] theorem State.setTables_env (x : Tables) : (s.setTables x).env = s.env := rfl
@[simp] theorem State.setTables_act (x : Tables) : (s.setTables x).act = s.act := rfl
@[simp] theorem State.setTables_haz (x : Tables) : (s.setTables x).haz = s.haz := rfl
@[simp] theorem State.setTables_exe (x : Tables) : (s.setTables x).exe = s.exe := rfl
@[simp] theorem State.setTables_home (x : Tables) : (s.setTables x).home = s.home := rfl
@[simp] theorem State.setTables_gate (x : Tables) : (s.setTables x).gate = s.gate := rfl
@[simp] theorem State.setTables_dp (x : Tables) : (s.setTables x).dp = s.dp := rfl
@[simp] theorem State.setTables_port (x : Tables) : (s.setTables x).port = s.port := rfl
@[simp] theorem State.setTables_mgmt (x : Tables) : (s.setTables x).mgmt = s.mgmt := rfl
@[simp] theorem State.setTables_pins (x : Tables) : (s.setTables x).pins = s.pins := rfl
@[simp] theorem State.setTables_reports (x : Tables) : (s.setTables x).reports = s.reports := rfl
@[simp] theorem State.setTables_fresh (x : Tables) : (s.setTables x).fresh = s.fresh := rfl
@[simp] theorem State.setTables_pending (x : Tables) : (s.setTables x).pending = s.pending := rfl
@[simp] theorem State.setTables_setTables (x y : Tables) : (s.setTables x).setTables y = s.setTables y := rfl
@[simp] theorem State.setTables_same : s.setTables s.tables = s := rfl

@[simp] theorem State.setDec_tables (x : Decoder) : (s.setDec x).tables = s.tables := rfl
@[simp] theorem State.setDec_dec (x : Decoder) : (s.setDec x).dec = x := rfl
@[simp] theorem State.setDec_env (x : Decoder) : (s.setDec x).env = s.env := rfl
@[simp] theorem State.setDec_act (x : Decoder) : (s.setDec x).act = s.act := rfl
@[simp] theorem State.setDec_haz (x : Decoder) : (s.setDec x).haz = s.haz := rfl
@[simp] theorem State.setDec_exe (x : Decoder) : (s.setDec x).exe = s.exe := rfl
@[simp] theorem State.setDec_home (x : Decoder) : (s.setDec x).home = s.home := rfl
@[simp] theorem State.setDec_gate (x : Decoder) : (s.setDec x).gate = s.gate := rfl
@[simp] theorem State.setDec_dp (x : Decoder) : (s.setDec x).dp = s.dp := rfl
@[simp] theorem State.setDec_port (x : Decoder) : (s.setDec x).port = s.port := rfl
@[simp] theorem State.setDec_mgmt (x : Decoder) : (s.setDec x).mgmt = s.mgmt := rfl
@[simp] theorem State.setDec_pins (x : Decoder) : (s.setDec x).pins = s.pins := rfl
@[simp] theorem State.setDec_reports (x : Decoder) : (s.setDec x).reports = s.reports := rfl
@[simp] theorem State.setDec_fresh (x : Decoder) : (s.setDec x).fresh = s.fresh := rfl
@[simp] theorem State.setDec_pending (x : Decoder) : (s.setDec x).pending = s.pending := rfl
@[simp] theorem State.setDec_setDec (x y : Decoder) : (s.setDec x).setDec y = s.setDec y := rfl
@[simp] theorem State.setDec_same : s.setDec s.dec = s := rfl

@[simp] theorem State.setEnv_tables (x : Envelope) : (s.setEnv x).tables = s.tables := rfl
@[simp] theorem State.setEnv_dec (x : Envelope) : (s.setEnv x).dec = s.dec := rfl
@[simp] theorem State.setEnv_env (x : Envelope) : (s.setEnv x).env = x := rfl
@[simp] theorem State.setEnv_act (x : Envelope) : (s.setEnv x).act = s.act := rfl
@[simp] theorem State.setEnv_haz (x : Envelope) : (s.setEnv x).haz = s.haz := rfl
@[simp] theorem State.setEnv_exe (x : Envelope) : (s.setEnv x).exe = s.exe := rfl
@[simp] theorem State.setEnv_home (x : Envelope) : (s.setEnv x).home = s.home := rfl
@[simp] theorem State.setEnv_gate (x : Envelope) : (s.setEnv x).gate = s.gate := rfl
@[simp] theorem State.setEnv_dp (x : Envelope) : (s.setEnv x).dp = s.dp := rfl
@[simp] theorem State.setEnv_port (x : Envelope) : (s.setEnv x).port = s.port := rfl
@[simp] theorem State.setEnv_mgmt (x : Envelope) : (s.setEnv x).mgmt = s.mgmt := rfl
@[simp] theorem State.setEnv_pins (x : Envelope) : (s.setEnv x).pins = s.pins := rfl
@[simp] theorem State.setEnv_reports (x : Envelope) : (s.setEnv x).reports = s.reports := rfl
@[simp] theorem State.setEnv_fresh (x : Envelope) : (s.setEnv x).fresh = s.fresh := rfl
@[simp] theorem State.setEnv_pending (x : Envelope) : (s.setEnv x).pending = s.pending := rfl
@[simp] theorem State.setEnv_setEnv (x y : Envelope) : (s.setEnv x).setEnv y = s.setEnv y := rfl
@[simp] theorem State.setEnv_same : s.setEnv s.env = s := rfl

@[simp] theorem State.setAct_tables (x : Activity) : (s.setAct x).tables = s.tables := rfl
@[simp] theorem State.setAct_dec (x : Activity) : (s.setAct x).dec = s.dec := rfl
@[simp] theorem State.setAct_env (x : Activity) : (s.setAct x).env = s.env := rfl
@[simp] theorem State.setAct_act (x : Activity) : (s.setAct x).act = x := rfl
@[simp] theorem State.setAct_haz (x : Activity) : (s.setAct x).haz = s.haz := rfl
@[simp] theorem State.setAct_exe (x : Activity) : (s.setAct x).exe = s.exe := rfl
@[simp] theorem State.setAct_home (x : Activity) : (s.setAct x).home = s.home := rfl
@[simp] theorem State.setAct_gate (x : Activity) : (s.setAct x).gate = s.gate := rfl
@[simp] theorem State.setAct_dp (x : Activity) : (s.setAct x).dp = s.dp := rfl
@[simp] theorem State.setAct_port (x : Activity) : (s.setAct x).port = s.port := rfl
@[simp] theorem State.setAct_mgmt (x : Activity) : (s.setAct x).mgmt = s.mgmt := rfl
@[simp] theorem State.setAct_pins (x : Activity) : (s.setAct x).pins = s.pins := rfl
@[simp] theorem State.setAct_reports (x : Activity) : (s.setAct x).reports = s.reports := rfl
@[simp] theorem State.setAct_fresh (x : Activity) : (s.setAct x).fresh = s.fresh := rfl
@[simp] theorem State.setAct_pending (x : Activity) : (s.setAct x).pending = s.pending := rfl
@[simp] theorem State.setAct_setAct (x y : Activity) : (s.setAct x).setAct y = s.setAct y := rfl
@[simp] theorem State.setAct_same : s.setAct s.act = s := rfl

@[simp] theorem State.setHaz_tables (x : HazardMonitor) : (s.setHaz x).tables = s.tables := rfl
@[simp] theorem State.setHaz_dec (x : HazardMonitor) : (s.setHaz x).dec = s.dec := rfl
@[simp] theorem State.setHaz_env (x : HazardMonitor) : (s.setHaz x).env = s.env := rfl
@[simp] theorem State.setHaz_act (x : HazardMonitor) : (s.setHaz x).act = s.act := rfl
@[simp] theorem State.setHaz_haz (x : HazardMonitor) : (s.setHaz x).haz = x := rfl
@[simp] theorem State.setHaz_exe (x : HazardMonitor) : (s.setHaz x).exe = s.exe := rfl
@[simp] theorem State.setHaz_home (x : HazardMonitor) : (s.setHaz x).home = s.home := rfl
@[simp] theorem State.setHaz_gate (x : HazardMonitor) : (s.setHaz x).gate = s.gate := rfl
@[simp] theorem State.setHaz_dp (x : HazardMonitor) : (s.setHaz x).dp = s.dp := rfl
@[simp] theorem State.setHaz_port (x : HazardMonitor) : (s.setHaz x).port = s.port := rfl
@[simp] theorem State.setHaz_mgmt (x : HazardMonitor) : (s.setHaz x).mgmt = s.mgmt := rfl
@[simp] theorem State.setHaz_pins (x : HazardMonitor) : (s.setHaz x).pins = s.pins := rfl
@[simp] theorem State.setHaz_reports (x : HazardMonitor) : (s.setHaz x).reports = s.reports := rfl
@[simp] theorem State.setHaz_fresh (x : HazardMonitor) : (s.setHaz x).fresh = s.fresh := rfl
@[simp] theorem State.setHaz_pending (x : HazardMonitor) : (s.setHaz x).pending = s.pending := rfl
@[simp] theorem State.setHaz_setHaz (x y : HazardMonitor) : (s.setHaz x).setHaz y = s.setHaz y := rfl
@[simp] theorem State.setHaz_same : s.setHaz s.haz = s := rfl

@[simp] theorem State.setExe_tables (x : Executor) : (s.setExe x).tables = s.tables := rfl
@[simp] theorem State.setExe_dec (x : Executor) : (s.setExe x).dec = s.dec := rfl
@[simp] theorem State.setExe_env (x : Executor) : (s.setExe x).env = s.env := rfl
@[simp] theorem State.setExe_act (x : Executor) : (s.setExe x).act = s.act := rfl
@[simp] theorem State.setExe_haz (x : Executor) : (s.setExe x).haz = s.haz := rfl
@[simp] theorem State.setExe_exe (x : Executor) : (s.setExe x).exe = x := rfl
@[simp] theorem State.setExe_home (x : Executor) : (s.setExe x).home = s.home := rfl
@[simp] theorem State.setExe_gate (x : Executor) : (s.setExe x).gate = s.gate := rfl
@[simp] theorem State.setExe_dp (x : Executor) : (s.setExe x).dp = s.dp := rfl
@[simp] theorem State.setExe_port (x : Executor) : (s.setExe x).port = s.port := rfl
@[simp] theorem State.setExe_mgmt (x : Executor) : (s.setExe x).mgmt = s.mgmt := rfl
@[simp] theorem State.setExe_pins (x : Executor) : (s.setExe x).pins = s.pins := rfl
@[simp] theorem State.setExe_reports (x : Executor) : (s.setExe x).reports = s.reports := rfl
@[simp] theorem State.setExe_fresh (x : Executor) : (s.setExe x).fresh = s.fresh := rfl
@[simp] theorem State.setExe_pending (x : Executor) : (s.setExe x).pending = s.pending := rfl
@[simp] theorem State.setExe_setExe (x y : Executor) : (s.setExe x).setExe y = s.setExe y := rfl
@[simp] theorem State.setExe_same : s.setExe s.exe = s := rfl

@[simp] theorem State.setHome_tables (x : Homing) : (s.setHome x).tables = s.tables := rfl
@[simp] theorem State.setHome_dec (x : Homing) : (s.setHome x).dec = s.dec := rfl
@[simp] theorem State.setHome_env (x : Homing) : (s.setHome x).env = s.env := rfl
@[simp] theorem State.setHome_act (x : Homing) : (s.setHome x).act = s.act := rfl
@[simp] theorem State.setHome_haz (x : Homing) : (s.setHome x).haz = s.haz := rfl
@[simp] theorem State.setHome_exe (x : Homing) : (s.setHome x).exe = s.exe := rfl
@[simp] theorem State.setHome_home (x : Homing) : (s.setHome x).home = x := rfl
@[simp] theorem State.setHome_gate (x : Homing) : (s.setHome x).gate = s.gate := rfl
@[simp] theorem State.setHome_dp (x : Homing) : (s.setHome x).dp = s.dp := rfl
@[simp] theorem State.setHome_port (x : Homing) : (s.setHome x).port = s.port := rfl
@[simp] theorem State.setHome_mgmt (x : Homing) : (s.setHome x).mgmt = s.mgmt := rfl
@[simp] theorem State.setHome_pins (x : Homing) : (s.setHome x).pins = s.pins := rfl
@[simp] theorem State.setHome_reports (x : Homing) : (s.setHome x).reports = s.reports := rfl
@[simp] theorem State.setHome_fresh (x : Homing) : (s.setHome x).fresh = s.fresh := rfl
@[simp] theorem State.setHome_pending (x : Homing) : (s.setHome x).pending = s.pending := rfl
@[simp] theorem State.setHome_setHome (x y : Homing) : (s.setHome x).setHome y = s.setHome y := rfl
@[simp] theorem State.setHome_same : s.setHome s.home = s := rfl

@[simp] theorem State.setGate_tables (x : GateState) : (s.setGate x).tables = s.tables := rfl
@[simp] theorem State.setGate_dec (x : GateState) : (s.setGate x).dec = s.dec := rfl
@[simp] theorem State.setGate_env (x : GateState) : (s.setGate x).env = s.env := rfl
@[simp] theorem State.setGate_act (x : GateState) : (s.setGate x).act = s.act := rfl
@[simp] theorem State.setGate_haz (x : GateState) : (s.setGate x).haz = s.haz := rfl
@[simp] theorem State.setGate_exe (x : GateState) : (s.setGate x).exe = s.exe := rfl
@[simp] theorem State.setGate_home (x : GateState) : (s.setGate x).home = s.home := rfl
@[simp] theorem State.setGate_gate (x : GateState) : (s.setGate x).gate = x := rfl
@[simp] theorem State.setGate_dp (x : GateState) : (s.setGate x).dp = s.dp := rfl
@[simp] theorem State.setGate_port (x : GateState) : (s.setGate x).port = s.port := rfl
@[simp] theorem State.setGate_mgmt (x : GateState) : (s.setGate x).mgmt = s.mgmt := rfl
@[simp] theorem State.setGate_pins (x : GateState) : (s.setGate x).pins = s.pins := rfl
@[simp] theorem State.setGate_reports (x : GateState) : (s.setGate x).reports = s.reports := rfl
@[simp] theorem State.setGate_fresh (x : GateState) : (s.setGate x).fresh = s.fresh := rfl
@[simp] theorem State.setGate_pending (x : GateState) : (s.setGate x).pending = s.pending := rfl
@[simp] theorem State.setGate_setGate (x y : GateState) : (s.setGate x).setGate y = s.setGate y := rfl
@[simp] theorem State.setGate_same : s.setGate s.gate = s := rfl

@[simp] theorem State.setDp_tables (x : DrivePort) : (s.setDp x).tables = s.tables := rfl
@[simp] theorem State.setDp_dec (x : DrivePort) : (s.setDp x).dec = s.dec := rfl
@[simp] theorem State.setDp_env (x : DrivePort) : (s.setDp x).env = s.env := rfl
@[simp] theorem State.setDp_act (x : DrivePort) : (s.setDp x).act = s.act := rfl
@[simp] theorem State.setDp_haz (x : DrivePort) : (s.setDp x).haz = s.haz := rfl
@[simp] theorem State.setDp_exe (x : DrivePort) : (s.setDp x).exe = s.exe := rfl
@[simp] theorem State.setDp_home (x : DrivePort) : (s.setDp x).home = s.home := rfl
@[simp] theorem State.setDp_gate (x : DrivePort) : (s.setDp x).gate = s.gate := rfl
@[simp] theorem State.setDp_dp (x : DrivePort) : (s.setDp x).dp = x := rfl
@[simp] theorem State.setDp_port (x : DrivePort) : (s.setDp x).port = s.port := rfl
@[simp] theorem State.setDp_mgmt (x : DrivePort) : (s.setDp x).mgmt = s.mgmt := rfl
@[simp] theorem State.setDp_pins (x : DrivePort) : (s.setDp x).pins = s.pins := rfl
@[simp] theorem State.setDp_reports (x : DrivePort) : (s.setDp x).reports = s.reports := rfl
@[simp] theorem State.setDp_fresh (x : DrivePort) : (s.setDp x).fresh = s.fresh := rfl
@[simp] theorem State.setDp_pending (x : DrivePort) : (s.setDp x).pending = s.pending := rfl
@[simp] theorem State.setDp_setDp (x y : DrivePort) : (s.setDp x).setDp y = s.setDp y := rfl
@[simp] theorem State.setDp_same : s.setDp s.dp = s := rfl

@[simp] theorem State.setPort_tables (x : PortState) : (s.setPort x).tables = s.tables := rfl
@[simp] theorem State.setPort_dec (x : PortState) : (s.setPort x).dec = s.dec := rfl
@[simp] theorem State.setPort_env (x : PortState) : (s.setPort x).env = s.env := rfl
@[simp] theorem State.setPort_act (x : PortState) : (s.setPort x).act = s.act := rfl
@[simp] theorem State.setPort_haz (x : PortState) : (s.setPort x).haz = s.haz := rfl
@[simp] theorem State.setPort_exe (x : PortState) : (s.setPort x).exe = s.exe := rfl
@[simp] theorem State.setPort_home (x : PortState) : (s.setPort x).home = s.home := rfl
@[simp] theorem State.setPort_gate (x : PortState) : (s.setPort x).gate = s.gate := rfl
@[simp] theorem State.setPort_dp (x : PortState) : (s.setPort x).dp = s.dp := rfl
@[simp] theorem State.setPort_port (x : PortState) : (s.setPort x).port = x := rfl
@[simp] theorem State.setPort_mgmt (x : PortState) : (s.setPort x).mgmt = s.mgmt := rfl
@[simp] theorem State.setPort_pins (x : PortState) : (s.setPort x).pins = s.pins := rfl
@[simp] theorem State.setPort_reports (x : PortState) : (s.setPort x).reports = s.reports := rfl
@[simp] theorem State.setPort_fresh (x : PortState) : (s.setPort x).fresh = s.fresh := rfl
@[simp] theorem State.setPort_pending (x : PortState) : (s.setPort x).pending = s.pending := rfl
@[simp] theorem State.setPort_setPort (x y : PortState) : (s.setPort x).setPort y = s.setPort y := rfl
@[simp] theorem State.setPort_same : s.setPort s.port = s := rfl

@[simp] theorem State.setMgmt_tables (x : Mgmt) : (s.setMgmt x).tables = s.tables := rfl
@[simp] theorem State.setMgmt_dec (x : Mgmt) : (s.setMgmt x).dec = s.dec := rfl
@[simp] theorem State.setMgmt_env (x : Mgmt) : (s.setMgmt x).env = s.env := rfl
@[simp] theorem State.setMgmt_act (x : Mgmt) : (s.setMgmt x).act = s.act := rfl
@[simp] theorem State.setMgmt_haz (x : Mgmt) : (s.setMgmt x).haz = s.haz := rfl
@[simp] theorem State.setMgmt_exe (x : Mgmt) : (s.setMgmt x).exe = s.exe := rfl
@[simp] theorem State.setMgmt_home (x : Mgmt) : (s.setMgmt x).home = s.home := rfl
@[simp] theorem State.setMgmt_gate (x : Mgmt) : (s.setMgmt x).gate = s.gate := rfl
@[simp] theorem State.setMgmt_dp (x : Mgmt) : (s.setMgmt x).dp = s.dp := rfl
@[simp] theorem State.setMgmt_port (x : Mgmt) : (s.setMgmt x).port = s.port := rfl
@[simp] theorem State.setMgmt_mgmt (x : Mgmt) : (s.setMgmt x).mgmt = x := rfl
@[simp] theorem State.setMgmt_pins (x : Mgmt) : (s.setMgmt x).pins = s.pins := rfl
@[simp] theorem State.setMgmt_reports (x : Mgmt) : (s.setMgmt x).reports = s.reports := rfl
@[simp] theorem State.setMgmt_fresh (x : Mgmt) : (s.setMgmt x).fresh = s.fresh := rfl
@[simp] theorem State.setMgmt_pending (x : Mgmt) : (s.setMgmt x).pending = s.pending := rfl
@[simp] theorem State.setMgmt_setMgmt (x y : Mgmt) : (s.setMgmt x).setMgmt y = s.setMgmt y := rfl
@[simp] theorem State.setMgmt_same : s.setMgmt s.mgmt = s := rfl

@[simp] theorem State.setPins_tables (x : Pins) : (s.setPins x).tables = s.tables := rfl
@[simp] theorem State.setPins_dec (x : Pins) : (s.setPins x).dec = s.dec := rfl
@[simp] theorem State.setPins_env (x : Pins) : (s.setPins x).env = s.env := rfl
@[simp] theorem State.setPins_act (x : Pins) : (s.setPins x).act = s.act := rfl
@[simp] theorem State.setPins_haz (x : Pins) : (s.setPins x).haz = s.haz := rfl
@[simp] theorem State.setPins_exe (x : Pins) : (s.setPins x).exe = s.exe := rfl
@[simp] theorem State.setPins_home (x : Pins) : (s.setPins x).home = s.home := rfl
@[simp] theorem State.setPins_gate (x : Pins) : (s.setPins x).gate = s.gate := rfl
@[simp] theorem State.setPins_dp (x : Pins) : (s.setPins x).dp = s.dp := rfl
@[simp] theorem State.setPins_port (x : Pins) : (s.setPins x).port = s.port := rfl
@[simp] theorem State.setPins_mgmt (x : Pins) : (s.setPins x).mgmt = s.mgmt := rfl
@[simp] theorem State.setPins_pins (x : Pins) : (s.setPins x).pins = x := rfl
@[simp] theorem State.setPins_reports (x : Pins) : (s.setPins x).reports = s.reports := rfl
@[simp] theorem State.setPins_fresh (x : Pins) : (s.setPins x).fresh = s.fresh := rfl
@[simp] theorem State.setPins_pending (x : Pins) : (s.setPins x).pending = s.pending := rfl
@[simp] theorem State.setPins_setPins (x y : Pins) : (s.setPins x).setPins y = s.setPins y := rfl
@[simp] theorem State.setPins_same : s.setPins s.pins = s := rfl

@[simp] theorem State.setReports_tables (x : List Report) : (s.setReports x).tables = s.tables := rfl
@[simp] theorem State.setReports_dec (x : List Report) : (s.setReports x).dec = s.dec := rfl
@[simp] theorem State.setReports_env (x : List Report) : (s.setReports x).env = s.env := rfl
@[simp] theorem State.setReports_act (x : List Report) : (s.setReports x).act = s.act := rfl
@[simp] theorem State.setReports_haz (x : List Report) : (s.setReports x).haz = s.haz := rfl
@[simp] theorem State.setReports_exe (x : List Report) : (s.setReports x).exe = s.exe := rfl
@[simp] theorem State.setReports_home (x : List Report) : (s.setReports x).home = s.home := rfl
@[simp] theorem State.setReports_gate (x : List Report) : (s.setReports x).gate = s.gate := rfl
@[simp] theorem State.setReports_dp (x : List Report) : (s.setReports x).dp = s.dp := rfl
@[simp] theorem State.setReports_port (x : List Report) : (s.setReports x).port = s.port := rfl
@[simp] theorem State.setReports_mgmt (x : List Report) : (s.setReports x).mgmt = s.mgmt := rfl
@[simp] theorem State.setReports_pins (x : List Report) : (s.setReports x).pins = s.pins := rfl
@[simp] theorem State.setReports_reports (x : List Report) : (s.setReports x).reports = x := rfl
@[simp] theorem State.setReports_fresh (x : List Report) : (s.setReports x).fresh = s.fresh := rfl
@[simp] theorem State.setReports_pending (x : List Report) : (s.setReports x).pending = s.pending := rfl
@[simp] theorem State.setReports_setReports (x y : List Report) : (s.setReports x).setReports y = s.setReports y := rfl
@[simp] theorem State.setReports_same : s.setReports s.reports = s := rfl

@[simp] theorem State.setFresh_tables (x : Nat) : (s.setFresh x).tables = s.tables := rfl
@[simp] theorem State.setFresh_dec (x : Nat) : (s.setFresh x).dec = s.dec := rfl
@[simp] theorem State.setFresh_env (x : Nat) : (s.setFresh x).env = s.env := rfl
@[simp] theorem State.setFresh_act (x : Nat) : (s.setFresh x).act = s.act := rfl
@[simp] theorem State.setFresh_haz (x : Nat) : (s.setFresh x).haz = s.haz := rfl
@[simp] theorem State.setFresh_exe (x : Nat) : (s.setFresh x).exe = s.exe := rfl
@[simp] theorem State.setFresh_home (x : Nat) : (s.setFresh x).home = s.home := rfl
@[simp] theorem State.setFresh_gate (x : Nat) : (s.setFresh x).gate = s.gate := rfl
@[simp] theorem State.setFresh_dp (x : Nat) : (s.setFresh x).dp = s.dp := rfl
@[simp] theorem State.setFresh_port (x : Nat) : (s.setFresh x).port = s.port := rfl
@[simp] theorem State.setFresh_mgmt (x : Nat) : (s.setFresh x).mgmt = s.mgmt := rfl
@[simp] theorem State.setFresh_pins (x : Nat) : (s.setFresh x).pins = s.pins := rfl
@[simp] theorem State.setFresh_reports (x : Nat) : (s.setFresh x).reports = s.reports := rfl
@[simp] theorem State.setFresh_fresh (x : Nat) : (s.setFresh x).fresh = x := rfl
@[simp] theorem State.setFresh_pending (x : Nat) : (s.setFresh x).pending = s.pending := rfl
@[simp] theorem State.setFresh_setFresh (x y : Nat) : (s.setFresh x).setFresh y = s.setFresh y := rfl
@[simp] theorem State.setFresh_same : s.setFresh s.fresh = s := rfl

@[simp] theorem State.setPending_tables (x : List Instr) : (s.setPending x).tables = s.tables := rfl
@[simp] theorem State.setPending_dec (x : List Instr) : (s.setPending x).dec = s.dec := rfl
@[simp] theorem State.setPending_env (x : List Instr) : (s.setPending x).env = s.env := rfl
@[simp] theorem State.setPending_act (x : List Instr) : (s.setPending x).act = s.act := rfl
@[simp] theorem State.setPending_haz (x : List Instr) : (s.setPending x).haz = s.haz := rfl
@[simp] theorem State.setPending_exe (x : List Instr) : (s.setPending x).exe = s.exe := rfl
@[simp] theorem State.setPending_home (x : List Instr) : (s.setPending x).home = s.home := rfl
@[simp] theorem State.setPending_gate (x : List Instr) : (s.setPending x).gate = s.gate := rfl
@[simp] theorem State.setPending_dp (x : List Instr) : (s.setPending x).dp = s.dp := rfl
@[simp] theorem State.setPending_port (x : List Instr) : (s.setPending x).port = s.port := rfl
@[simp] theorem State.setPending_mgmt (x : List Instr) : (s.setPending x).mgmt = s.mgmt := rfl
@[simp] theorem State.setPending_pins (x : List Instr) : (s.setPending x).pins = s.pins := rfl
@[simp] theorem State.setPending_reports (x : List Instr) : (s.setPending x).reports = s.reports := rfl
@[simp] theorem State.setPending_fresh (x : List Instr) : (s.setPending x).fresh = s.fresh := rfl
@[simp] theorem State.setPending_pending (x : List Instr) : (s.setPending x).pending = x := rfl
@[simp] theorem State.setPending_setPending (x y : List Instr) : (s.setPending x).setPending y = s.setPending y := rfl
@[simp] theorem State.setPending_same : s.setPending s.pending = s := rfl

end Sys2Proof.Machine
end

