-- ==== Sys2Proof/Laws/Event.lean ====
section
/-! SUPPORT. What an event can do, said once: a property of states that the few updates of `EventLaw` keep is kept by every condition
change, every activity event, every order at the gate and every step of the executor and the homing unit. -/

namespace Sys2Proof.Machine

/-- A stack whose HALT record is that of the state, or has a cause. -/
def HaltAllowed (k old : Stack) : Prop := k.halt = old.halt ∨ ∀ r ∈ k.halt, r.causes ≠ CauseSet.none

/-- The updates an event at the envelope, activity, hazard, executor, homing and gate blocks is made of, each keeping `P`. -/
structure EventLaw (P : State → Prop) : Prop where
  queue : ∀ t s, P s → P (queueToken t s)
  mark : ∀ i s, P s → P (markNotice i s)
  refusal : ∀ c n k d s, P s → P (enterRefusal c n k d s)
  derive : ∀ x s, P s → P (refresh (s.setEnv x))
  enable : ∀ b s, P s → P (refresh (s.setAct { s.act with bladeEnable := b }))
  activity : ∀ x s, x.stack = s.act.stack → x.bladeEnable = s.act.bladeEnable → P s → P (s.setAct x)
  stack : ∀ k s, HaltAllowed k s.act.stack → P s → P (s.setStack k)
  condition : ∀ i v s, P s → P (hazardMove i v s).1
  owed : ∀ i v s, P s → P (setOwed i v s)
  quiet : ∀ i s, P s → P (moveSource i .quiet none s)
  raise : ∀ i s, s.haz.sources[i].cond = true → P s → P (moveSource i .raised none s)
  exe : ∀ x s, P s → P (s.setExe x)
  home : ∀ x s, P s → P (s.setHome x)
  reports : ∀ x s, P s → P (s.setReports x)
  deferred : ∀ d s, P s → P (s.setGate { s.gate with deferred := d })

variable {P : State → Prop}

/-- A stack with another HALT field untouched is allowed. -/
theorem haltAllowed_same (k old : Stack) (h : k.halt = old.halt) : HaltAllowed k old := .inl h

theorem haltAllowed_none (k old : Stack) (h : k.halt = none) : HaltAllowed k old := .inr (by simp [h])

theorem causeSet_add_ne_none (c : CauseSet) (x : HaltCause) : c.add x ≠ CauseSet.none := by
  cases x with
  | source i =>
    intro h
    have h1 := congrArg (fun y : CauseSet => y.sources.getLsbD i.val) h
    have hi : (i.val : Nat) < 16 := i.isLt
    simp [CauseSet.add, CauseSet.none, hi] at h1
  | pause => intro h; simpa [CauseSet.add, CauseSet.none] using congrArg CauseSet.pause h
  | noDock => intro h; simpa [CauseSet.add, CauseSet.none] using congrArg CauseSet.noDock h

namespace EventLaw

variable (L : EventLaw P)
include L

/-! ### Envelope and sources -/

theorem refresh (s : State) (h : P s) : P (refresh s) := by simpa using L.derive s.env s h

theorem queueTokens (ts : List Token) (s : State) (h : P s) : P (queueTokens ts s) := by
  unfold Machine.queueTokens
  induction ts generalizing s with
  | nil => exact h
  | cons t ts ih => exact ih _ (L.queue t s h)

theorem writeWheels (l r : Int) (s : State) (h : P s) : P (writeWheels l r s) := L.derive _ s h

theorem zeroAtHandOver (l r : Int) (s : State) (h : P s) : P (Machine.writeWheels l r (setActivityCap s)) := L.derive _ s h

theorem writeBlades (bs : List Blade) (n : Nat) (s : State) (h : P s) : P (writeBlades bs n s) := L.derive _ s h

theorem writeDeck (n : Nat) (s : State) (h : P s) : P (writeDeck n s) := L.derive _ s h

theorem takePercent (b : Blade) (n : Nat) (s : State) (h : P s) : P (takePercent b n s) := L.derive _ s h

theorem takeN (n : Option Int) (s : State) (h : P s) : P (takeN n s) := L.derive _ s h

theorem setBladeEnable (b : Bool) (s : State) (h : P s) : P (setBladeEnable b s) := by
  unfold Machine.setBladeEnable
  split
  · exact h
  · exact L.enable b s h

/-! ### Executor -/

theorem setEscape (r : EscRec) (s : State) (h : P s) : P (setEscape r s) := L.stack _ s (.inl rfl) h

theorem startStep (i : Fin 8) (s : State) (h : P s) : P (startStep i s) := by
  unfold Machine.startStep
  split
  · exact h
  · have h1 := L.writeWheels (s.tables.step ‹EscRec›.man i).left (s.tables.step ‹EscRec›.man i).right _
      (L.setEscape { ‹EscRec› with step := i, progress := 0, elapsed := 0 } s h)
    dsimp only
    split
    · exact L.exe _ _ (L.reports _ _ h1)
    · exact L.exe _ _ h1

theorem addReport (r : Report) (s : State) (h : P s) : P (addReport r s) := L.reports _ s h

theorem stopEscape (x : HeldEscape) (s : State) (h : P s) : P (stopEscape x s) := L.exe _ s h

theorem dropEscape (s : State) (h : P s) : P (dropEscape s) := L.exe _ s h

theorem endStep (r : EscRec) (s : State) (h : P s) : P (endStep r s) := by
  unfold Machine.endStep
  split
  · exact L.startStep _ s h
  · exact L.addReport _ _ (L.stopEscape _ s h)

theorem failStep (r : EscRec) (s : State) (h : P s) : P (failStep r s) := by
  unfold Machine.failStep
  split
  · exact L.startStep _ _ (L.setEscape _ s h)
  · exact L.addReport _ _ (L.stopEscape _ s h)

theorem addProgress (r : EscRec) (a t : Nat) (s : State) (h : P s) : P (addProgress r a t s) := by
  unfold Machine.addProgress
  dsimp only
  split
  · exact L.endStep _ _ (L.setEscape _ s h)
  · exact L.setEscape _ s h

theorem odometryToEscape (u : Int) (s : State) (h : P s) : P (odometryToEscape u s) := by
  unfold Machine.odometryToEscape
  split
  · exact h
  · dsimp only
    split
    · exact L.addProgress _ _ _ s h
    · exact h
    · exact h

theorem headingToEscape (n : Nat) (s : State) (h : P s) : P (headingToEscape n s) := by
  unfold Machine.headingToEscape
  split
  · exact h
  · dsimp only
    split
    · exact h
    · exact h
    · split
      · exact L.exe _ s h
      · exact L.addProgress _ _ _ _ (L.exe _ s h)

theorem expireStep (s : State) (h : P s) : P (expireStep s) := by
  unfold Machine.expireStep
  split
  · have h1 := L.exe { s.exe with timer := none } _
      (L.setEscape { ‹EscRec› with elapsed := ‹StepTimer›.run } s h)
    dsimp only
    split
    · exact L.endStep _ _ h1
    · exact L.failStep _ _ h1
    · exact L.failStep _ _ h1
  · exact h

theorem topToExecutor (s : State) (h : P s) : P (topToExecutor s) := by
  unfold Machine.topToExecutor
  split
  · split
    · split
      · exact h
      · exact L.startStep _ _ (L.exe _ _ (L.dropEscape s h))
    · exact L.startStep _ _ (L.exe _ s h)
  · split
    · split
      · exact L.stopEscape _ s h
      · exact L.dropEscape s h
    · exact h
  · exact L.dropEscape s h

/-! ### Homing -/

theorem setFollow (r : FollowRec) (s : State) (h : P s) : P (setFollow r s) := L.stack _ s (.inl rfl) h

theorem setDocked (r : DockedRec) (s : State) (h : P s) : P (setDocked r s) := L.stack _ s (.inl rfl) h

theorem formReady (s : State) (h : P s) : P (formReady s) := by
  unfold Machine.formReady
  split
  · exact h
  · exact L.mark _ _ (L.home _ s h)

theorem dropGuideView (s : State) (h : P s) : P (dropGuideView s) := L.home _ s h

theorem clearReported (s : State) (h : P s) : P (clearReported s) := L.home _ s h

theorem settleFollow (s : State) (h : P s) : P (settleFollow s) := by
  unfold Machine.settleFollow
  split
  · exact h
  · exact L.clearReported _ (L.setFollow _ s h)

theorem loopLost (l : Fin 8) (s : State) (h : P s) : P (loopLost l s) := by
  unfold Machine.loopLost
  have h1 : P (if l = s.tables.home.guide then Machine.dropGuideView s else s) := by
    split
    · exact L.dropGuideView s h
    · exact h
  dsimp only
  generalize (if l = s.tables.home.guide then Machine.dropGuideView s else s) = s1 at h1
  split
  · exact h1
  · split
    · exact h1
    · refine L.writeWheels _ _ _ ?_
      split
      · exact h1
      · exact L.clearReported _ (L.setFollow _ s1 h1)
      · exact L.clearReported _ (L.setFollow _ s1 h1)
      · exact L.clearReported _ (L.setFollow _ s1 h1)

theorem frontSilent (s : State) (h : P s) : P (frontSilent s) := by
  unfold Machine.frontSilent
  split
  · exact h
  · exact L.writeWheels _ _ s h

theorem powerSilent (s : State) (h : P s) : P (powerSilent s) := by
  unfold Machine.powerSilent
  split
  · exact h
  · split
    · exact L.clearReported _ (L.setFollow _ s h)
    · exact h
    · exact h
    · exact h

theorem handOff (l : Fin 8) (e : Int) (f : Nat) (s : State) (h : P s) : P (handOff l e f s) := by
  unfold Machine.handOff
  have h1 : P (if l = s.tables.home.guide then s.setHome { s.home with guideView := some f } else s) := by
    split
    · exact L.home _ s h
    · exact h
  dsimp only
  generalize (if l = s.tables.home.guide then s.setHome { s.home with guideView := some f } else s) = s1 at h1
  split
  · exact h1
  · generalize (if l = s.tables.home.guide then captureStep s1 ‹FollowRec› f else ‹FollowRec›) = r'
    have h2 := L.setFollow r' s1 h1
    split
    · exact h2
    · split
      · exact L.writeWheels _ _ _ h2
      · exact L.writeWheels _ _ _ h2
      · exact L.writeWheels _ _ _ h2
      · exact L.writeWheels _ _ _ h2

theorem chargeWatch (c : Bool) (n : Nat) (s : State) (h : P s) : P (chargeWatch c n s) := by
  unfold Machine.chargeWatch
  split
  · exact h
  · dsimp only
    refine L.formReady _ (L.home _ _ ?_)
    split
    · exact h
    · exact L.mark _ _ (L.setDocked _ s h)

/-! ### One event at the activity unit -/

theorem bump (e : Ev) (h : P e.s) : P e.bump.s := by
  unfold Ev.bump
  split
  · exact h
  · exact L.mark _ _ (L.activity _ e.s rfl rfl h)

theorem alter (e : Ev) (f : Byte → Stack → Stack) (hf : ∀ b k, HaltAllowed (f b k) k) (h : P e.s) : P (e.alter f).s :=
  L.stack _ e.bump.s (hf _ _) (L.bump e h)

theorem change (e : Ev) (f : Byte → Stack → Stack) (hf : ∀ b k, HaltAllowed (f b k) k) (h : P e.s) : P (e.change f).s :=
  L.alter e f hf h

theorem pushMow (e : Ev) (h : P e.s) : P (pushMow e).s := L.change e _ (fun _ _ => .inl rfl) h

theorem pushFollow (a b : Bool) (e : Ev) (h : P e.s) : P (pushFollow a b e).s :=
  L.setBladeEnable _ _ (L.home _ _ (L.change e _ (fun _ _ => .inl rfl) h))

theorem putEscape (m : Fin 8) (c : EscCause) (n : Nat) (e : Ev) (h : P e.s) : P (putEscape m c n e).s :=
  L.change e _ (fun _ _ => .inl rfl) h

theorem pushHalt (c : HaltCause) (e : Ev) (h : P e.s) : P (pushHalt c e).s := by
  refine L.setBladeEnable _ _ (L.change (e.map _) _ (fun _ _ => .inr ?_) (L.activity _ e.s rfl rfl h))
  simpa using causeSet_add_ne_none _ c

theorem haltFor (c : HaltCause) (e : Ev) (h : P e.s) : P (haltFor c e).s := by
  unfold Machine.haltFor
  split
  · exact L.pushHalt c e h
  · exact L.stack _ e.s (.inr (by simpa using causeSet_add_ne_none _ c)) h

theorem trap (e : Ev) (h : P e.s) : P (trap e).s :=
  L.condition _ _ _ (L.pushHalt _ _ (L.change e _ (fun _ _ => .inl rfl) h))

theorem escapeResponse (i : Fin 16) (m : Fin 8) (e : Ev) (h : P e.s) : P (escapeResponse i m e).s := by
  unfold Machine.escapeResponse
  dsimp only
  split
  · exact L.owed _ _ _ (L.haltFor _ e h)
  · split
    · exact L.owed _ _ _ (L.putEscape _ _ _ e h)
    · exact L.owed _ _ _ (L.putEscape _ _ _ e h)
    · split
      · exact h
      · split
        · split
          · exact L.owed _ _ _ (L.putEscape _ _ _ e h)
          · exact L.owed _ _ _ (L.trap e h)
        · exact L.owed _ _ _ h
    · exact L.owed _ _ _ (L.writeWheels _ _ e.s h)
    · exact L.owed _ _ _ h
    · exact L.owed _ _ _ h

theorem returnResponse (e : Ev) (h : P e.s) : P (returnResponse e).s := by
  unfold Machine.returnResponse
  dsimp only
  split
  · exact h
  · split
    · exact L.pushFollow _ _ e h
    all_goals first
      | exact h
      | (split
         · exact L.activity _ e.s rfl rfl h
         · exact h)

theorem responseChange (i : Fin 16) (e : Ev) (h : P e.s) : P (responseChange i e).s := by
  unfold Machine.responseChange
  dsimp only
  split
  · exact L.haltFor _ e h
  · exact L.escapeResponse _ _ e h
  · exact L.returnResponse e h
  · exact h
  · exact h

/-! ### Requests and orders -/

theorem requestStartMow (e e' : Ev) (h : P e.s) (he : requestStartMow e = .ok e') : P e'.s := by
  unfold Machine.requestStartMow at he
  dsimp only at he
  split at he
  · cases he; exact h
  · split at he
    · cases he; exact L.pushMow e h
    · cases he; exact L.formReady _ (L.alter e _ (fun _ _ => .inl rfl) h)
    all_goals cases he

theorem mergeEnd (b : Bool) (x : HomeRec) (e : Ev) (h : P e.s) : P (mergeEnd b x e).s := by
  unfold Machine.mergeEnd
  split
  · exact L.setFollow _ e.s h
  · dsimp only
    split
    · exact L.formReady _ (L.alter (e.map _) _ (fun _ _ => .inl rfl) (L.setDocked _ e.s h))
    · exact L.setDocked _ e.s h

theorem requestGoHome (b : Bool) (e e' : Ev) (h : P e.s) (he : requestGoHome b e = .ok e') : P e'.s := by
  unfold Machine.requestGoHome at he
  dsimp only at he
  split at he
  · cases he; exact L.pushFollow _ _ e h
  · cases he; exact L.pushFollow _ _ e h
  · cases he; exact L.mergeEnd _ _ e h
  · cases he

theorem requestLeaveDock (e e' : Ev) (h : P e.s) (he : requestLeaveDock e = .ok e') : P e'.s := by
  unfold Machine.requestLeaveDock at he
  dsimp only at he
  split at he
  · cases he
  · split at he
    · cases he
    · cases he; exact L.home _ _ (L.formReady _ (L.change e _ (fun _ _ => .inl rfl) h))

theorem requestPause (e e' : Ev) (h : P e.s) (he : requestPause e = .ok e') : P e'.s := by
  cases he; exact L.haltFor _ e h

theorem resetFollow (s : State) (h : P s) : P (resetFollow s) := by
  unfold Machine.resetFollow
  split
  · exact h
  · exact L.home _ _ (L.setFollow _ s h)

theorem resumeBlades (c : CauseSet) (s : State) (h : P s) : P (resumeBlades c s) := by
  unfold Machine.resumeBlades
  have h1 : P (s.setAct { s.act with shadow := false }) := L.activity _ s rfl rfl h
  dsimp only
  split
  · exact L.setBladeEnable _ _ h1
  · exact h1

theorem requestResume (e e' : Ev) (h : P e.s) (he : requestResume e = .ok e') : P e'.s := by
  unfold Machine.requestResume at he
  split at he
  · cases he
  · split at he
    · cases he
    · cases he
      rename_i r _ _
      have h1 := L.resumeBlades r.causes _
        (L.change e (fun _ k => { k with halt := none, esc := none }) (fun _ _ => haltAllowed_none _ _ rfl) h)
      have h2 : P (if r.causes.noDock then Machine.resetFollow (Machine.resumeBlades r.causes
          (e.change fun _ k => { k with halt := none, esc := none }).s)
          else Machine.resumeBlades r.causes (e.change fun _ k => { k with halt := none, esc := none }).s) := by
        split
        · exact L.resetFollow _ h1
        · exact h1
      dsimp only [Ev.map]
      split
      · exact L.condition _ _ _ h2
      · exact h2

theorem requestRunManoeuvre (m : Nat) (e e' : Ev) (h : P e.s) (he : requestRunManoeuvre m e = .ok e') : P e'.s := by
  unfold Machine.requestRunManoeuvre at he
  split at he
  · split at he
    · cases he
    · split at he
      all_goals first
        | (cases he; exact L.putEscape _ _ _ e h)
        | cases he
  · cases he

theorem applyDrive (o : Order) (s : State) (h : P s) : P (applyDrive o s) := by
  cases o <;> dsimp only [Machine.applyDrive]
  case wheelSpeed => exact L.writeWheels _ _ s h
  case bladeSpeed => exact L.writeBlades _ _ s h
  case bladeStart => exact L.setBladeEnable _ _ (L.queueTokens _ s h)
  case bladeStop => exact L.setBladeEnable _ _ (L.queueTokens _ s h)
  case deckHeight => exact L.writeDeck _ s h
  case brake =>
    split
    · exact L.writeWheels _ _ _ (L.queue _ s h)
    · exact L.writeWheels _ _ _ (L.queue _ s h)
    · exact L.writeBlades _ _ _ (L.queue _ s h)
    · exact h
    · exact h
  all_goals exact h

theorem applyDrive_map (o : Order) (e : Ev) (h : P e.s) : P (e.map (Machine.applyDrive o)).s := L.applyDrive o e.s h

theorem applyOrder (o : Order) (e e' : Ev) (h : P e.s) (he : applyOrder o e = .ok e') : P e'.s := by
  cases o <;> dsimp only [Machine.applyOrder] at he
  case startMow => exact L.requestStartMow e e' h he
  case goHome => exact L.requestGoHome _ e e' h he
  case leaveDock => exact L.requestLeaveDock e e' h he
  case pause => exact L.requestPause e e' h he
  case resume => exact L.requestResume e e' h he
  case runManoeuvre => exact L.requestRunManoeuvre _ e e' h he
  all_goals
    split at he
    · cases he
    · cases he
      exact L.applyDrive_map _ e h

theorem gateOrder (o : Order) (r : Nat) (b : Bool) (e : Ev) (h : P e.s) : P (gateOrder o r b e).1.s := by
  unfold Machine.gateOrder
  split
  · exact h
  · exact h
  · split
    · exact L.applyOrder o e _ h ‹_›
    · exact h

theorem regate (e : Ev) (h : P e.s) : P (regate e).s := by
  unfold Machine.regate
  split
  · exact h
  · rename_i d _
    have h1 := L.gateOrder d.order d.rank d.order.isDrive e h
    split
    · exact h
    · rename_i e1 c detail _ heq
      rw [heq] at h1
      dsimp only
      split
      · exact L.refusal _ _ _ _ _ (L.deferred _ _ h1)
      · exact L.deferred _ _ h1

/-! ### Whole events -/

theorem pendingReturnStep (e : Ev) (h : P e.s) : P (pendingReturnStep e).s := by
  unfold Machine.pendingReturnStep
  dsimp only
  split
  · exact h
  · split
    · exact L.activity _ _ rfl rfl (L.pushFollow _ _ e h)
    all_goals first
      | exact h
      | exact L.activity _ e.s rfl rfl h

theorem owedStep (e : Ev) (i : Fin 16) (h : P e.s) : P (owedStep e i).s := by
  unfold Machine.owedStep
  dsimp only
  split
  · exact h
  · split
    · exact L.owed _ _ _ h
    · exact L.escapeResponse _ _ e h

theorem owedSteps (l : List (Fin 16)) (e : Ev) (h : P e.s) : P (l.foldl Machine.owedStep e).s := by
  induction l generalizing e with
  | nil => exact h
  | cons i l ih => exact ih _ (L.owedStep e i h)

theorem process (e : Ev) (h : P e.s) : P (process e).s := by
  unfold Machine.process
  split
  · exact L.regate _ (L.owedSteps _ _ (L.pendingReturnStep e h))
  · exact h

theorem closeEvent (e : Ev) (h : P e.s) : P (closeEvent e) := by
  unfold Machine.closeEvent
  split
  · exact L.settleFollow _ (L.topToExecutor _ (L.zeroAtHandOver _ _ _ h))
  · exact h

theorem formBattery (s : State) (h : P s) : P (formBattery s) := by
  unfold Machine.formBattery
  have h1 := L.condition srcBatteryLow (batteryCond s) s h
  split
  · rename_i heq
    rw [heq] at h1
    exact L.closeEvent _ (L.process _ (L.responseChange _ (Ev.start _) h1))
  · rename_i heq
    rw [heq] at h1
    exact h1

theorem batteryAfter (d : Bool) (e : Ev) (h : P e.s) : P (batteryAfter d e) := by
  have h1 : P (if e.dockedIn then (hazardMove srcBatteryLow false (Machine.closeEvent e)).1 else Machine.closeEvent e) := by
    split
    · exact L.condition _ _ _ (L.closeEvent e h)
    · exact L.closeEvent e h
  unfold Machine.batteryAfter
  dsimp only
  generalize (if e.dockedIn then (hazardMove srcBatteryLow false (Machine.closeEvent e)).1 else Machine.closeEvent e) = s1 at h1
  split
  · exact h1
  · exact L.formBattery s1 h1

theorem actEvent (base : Ev → Ev) (hb : ∀ e, P e.s → P (base e).s) (s : State) (h : P s) : P (actEvent base s) :=
  L.batteryAfter _ _ (L.process _ (hb _ h))

theorem setCondition (i : Fin 16) (v : Bool) (s : State) (h : P s) : P (setCondition i v s) := by
  unfold Machine.setCondition
  have h1 := L.condition i v s h
  split
  · rename_i heq
    rw [heq] at h1
    exact L.actEvent _ (L.responseChange i) _ h1
  · rename_i heq
    rw [heq] at h1
    exact h1

theorem takeOrder (o : Order) (r : Nat) (b t : Byte) (s : State) (h : P s) : P (takeOrder o r b t s).1 := by
  unfold Machine.takeOrder
  have h1 := L.gateOrder o r (o.staleAt b s) (Ev.start s) h
  split
  · rename_i heq
    rw [heq] at h1
    exact L.batteryAfter _ _ (L.process _ h1)
  · split
    · exact L.refusal _ _ _ _ s h
    · exact L.deferred _ s h
  · exact L.refusal _ _ _ _ s h

theorem formSensorSilent (s : State) (h : P s) : P (formSensorSilent s) := L.setCondition _ _ s h

theorem popEscape (e : Ev) (h : P e.s) : P (popEscape e).s := L.change e _ (fun _ _ => .inl rfl) h

theorem confirmDock (e : Ev) (h : P e.s) : P (confirmDock e).s := by
  unfold Machine.confirmDock
  split
  · exact h
  · refine L.mark _ _ (L.formReady _ (L.setBladeEnable _ _ (L.home _ _ ?_)))
    rename_i r _
    exact L.change e (fun ep k => { k with
      home := some (.docked ⟨ep, true, r.endAfter⟩), mow := if r.endAfter then none else k.mow }) (fun _ _ => .inl rfl) h

theorem followLimit (e : Ev) (h : P e.s) : P (followLimit e).s := by
  unfold Machine.followLimit
  split
  · exact L.haltFor _ e h
  · exact h

theorem testConfirm (s : State) (h : P s) : P (testConfirm s) := by
  unfold Machine.testConfirm
  split
  · exact h
  · split
    · exact L.actEvent _ L.confirmDock _ (L.home _ s h)
    · exact h

theorem dockContact (c : Bool) (s : State) (h : P s) : P (dockContact c s) := by
  unfold Machine.dockContact
  split
  · exact h
  · split
    · exact L.testConfirm _ (L.writeWheels _ _ _ (L.setFollow _ s h))
    · exact L.testConfirm _ (L.setFollow _ s h)
    · exact L.clearReported _ (L.setFollow _ s h)
    all_goals exact h

theorem powerToHoming (x : PowerSample) (s : State) (h : P s) : P (powerToHoming x s) := by
  unfold Machine.powerToHoming
  dsimp only
  split
  · exact L.chargeWatch _ _ s h
  · exact L.dockContact _ s h

theorem odometryToHoming (u : Int) (s : State) (h : P s) : P (odometryToHoming u s) := by
  unfold Machine.odometryToHoming
  split
  · exact h
  · dsimp only
    split
    · exact L.actEvent _ L.followLimit _ (L.home _ _ (L.setFollow _ s h))
    · exact L.home _ _ (L.setFollow _ s h)

end EventLaw

end Sys2Proof.Machine
end

