-- ==== Sys2Proof/Laws/Exec.lean ====
section
/-! SUPPORT. What a command can do, said once: a property of states that the updates of `StateLaw` keep is kept by every command and every
step. -/

namespace Sys2Proof.Machine

/-- The updates a command is made of beside those of an event, each keeping `P`. -/
structure StateLaw (P : State → Prop) : Prop extends EventLaw P where
  dec : ∀ x s, P s → P (s.setDec x)
  inputs : ∀ x s, x.caps = s.env.caps → x.k = s.env.k → x.held = s.env.held → P s → P (s.setEnv x)
  hazard : ∀ x s, x.sources = s.haz.sources → P s → P (s.setHaz x)
  noticed : ∀ i s, P s → P (setSource i { s.haz.sources[i] with raisedSince := false } s)
  dp : ∀ x s, x.queue.Sublist s.dp.queue → P s → P (s.setDp x)
  port : ∀ x s, (x.mirrors.length ≤ 8 ∨ x.mirrors.length ≤ s.port.mirrors.length) → P s → P (s.setPort x)
  mgmt : ∀ x s, P s → P (s.setMgmt x)
  pins : ∀ x s, P s → P (s.setPins x)
  fresh : ∀ x s, P s → P (s.setFresh x)
  tables : ∀ x s, P s → P (s.setTables x)
  emptied : ∀ s, P s → P (s.setGate { s.gate with refusal := none })
  start : ∀ s, P s → P (startValues s)
  ready : ∀ s, P s → P (readyBlocks s)

variable {P : State → Prop}

namespace StateLaw

variable (L : StateLaw P)
include L

/-! ### Decoder and sensors -/

theorem setNode (n : Fin 8) (r : Option NodeRec) (s : State) (h : P s) : P (setNode n r s) := L.hazard _ s rfl h

theorem pendNode (n : Fin 8) (s : State) (h : P s) : P (pendNode n s) := L.setNode _ _ s h

theorem setIntake (c : Fin 4) (r : CoilIntake) (s : State) (h : P s) : P (setIntake c r s) := L.dec _ s h

theorem arrive (n : Fin 8) (s : State) (h : P s) : P (arrive n s) := by
  unfold Machine.arrive
  split
  · exact h
  · dsimp only
    split
    · exact L.formSensorSilent _ (L.setNode _ _ s h)
    · exact L.setNode _ _ s h

theorem startWireDelay (s : State) (h : P s) : P (startWireDelay s) := by
  unfold Machine.startWireDelay
  split
  · exact L.setCondition _ _ _ (L.hazard _ s rfl h)
  · exact L.hazard _ s rfl h

theorem stopWireDelay (s : State) (h : P s) : P (stopWireDelay s) := L.setCondition _ _ _ (L.hazard _ s rfl h)

theorem outputN (s : State) (h : P s) : P (outputN s) := by
  unfold Machine.outputN
  dsimp only
  split
  · exact h
  · exact L.takeN _ _ (L.dec _ s h)

theorem outputOutside (s : State) (h : P s) : P (outputOutside s) := by
  unfold Machine.outputOutside
  dsimp only
  split
  · exact h
  · exact L.setCondition _ _ _ (L.dec _ s h)

theorem outputWireLost (s : State) (h : P s) : P (outputWireLost s) := by
  unfold Machine.outputWireLost
  dsimp only
  split
  · exact h
  · split
    · exact L.startWireDelay _ (L.dec _ s h)
    · exact L.stopWireDelay _ (L.dec _ s h)

theorem reevaluate (s : State) (h : P s) : P (reevaluate s) :=
  L.outputWireLost _ (L.outputOutside _ (L.outputN s h))

theorem applyToLoop (c : Fin 4) (g : Bool) (x : List Int) (s : State) (l : Fin 8) (h : P s) : P (applyToLoop c g x s l) := by
  unfold Machine.applyToLoop
  split
  · exact h
  · have h1 : P (if (frameAtLoop s.tables c g x s.dec l).2.2 = true then
        markNotice 18 (s.setDec (frameAtLoop s.tables c g x s.dec l).1)
        else s.setDec (frameAtLoop s.tables c g x s.dec l).1) := by
      split
      · exact L.mark _ _ (L.dec _ s h)
      · exact L.dec _ s h
    dsimp only
    generalize (if (frameAtLoop s.tables c g x s.dec l).2.2 = true then
        markNotice 18 (s.setDec (frameAtLoop s.tables c g x s.dec l).1)
        else s.setDec (frameAtLoop s.tables c g x s.dec l).1) = s2 at h1
    split
    · exact h1
    · split
      · exact L.handOff _ _ _ _ h1
      · exact h1

theorem applyToLoops (c : Fin 4) (g : Bool) (x : List Int) (ls : List (Fin 8)) (s : State) (h : P s) :
    P (ls.foldl (Machine.applyToLoop c g x) s) := by
  induction ls generalizing s with
  | nil => exact h
  | cons l ls ih => exact ih _ (L.applyToLoop c g x s l h)

theorem decodeFrame (c : Fin 4) (g : Bool) (x : List Int) (s : State) (h : P s) : P (decodeFrame c g x s) :=
  L.reevaluate _ (L.applyToLoops c g x _ s h)

theorem sequenceFrame (c : Fin 4) (q : Byte) (x : List Int) (s : State) (h : P s) : P (sequenceFrame c q x s) := by
  unfold Machine.sequenceFrame
  dsimp only
  split
  · exact L.decodeFrame _ _ _ _ (L.setIntake _ _ s h)
  · split
    · exact h
    · exact L.decodeFrame _ _ _ _ (L.setIntake _ _ s h)

theorem useCoilSample (n : Byte) (p : List Byte) (s : State) (h : P s) : P (useCoilSample n p s) := by
  unfold Machine.useCoilSample
  split
  · split
    · exact h
    · exact L.sequenceFrame _ _ _ _ (L.arrive _ _ (L.setIntake _ _ s h))
  · exact h

theorem expireFade (l : Fin 8) (s : State) (h : P s) : P (expireFade l s) := by
  unfold Machine.expireFade
  dsimp only
  split
  · exact L.reevaluate _ (L.loopLost _ _ (L.mark _ _ (L.dec _ s h)))
  · exact h

theorem coilSilent (c : Fin 4) (s : State) (h : P s) : P (coilSilent c s) := by
  unfold Machine.coilSilent
  have h1 := L.dec ((s.dec.staleCoil c).unavailable s.tables c) s h
  refine L.reevaluate _ ?_
  split
  · refine L.frontSilent _ ?_
    split
    · exact L.dropGuideView _ h1
    · exact h1
  · exact h1

theorem expireDeadline (n : Fin 8) (s : State) (h : P s) : P (expireDeadline n s) := by
  unfold Machine.expireDeadline
  split
  · have h1 := L.setNode n (some ⟨.silent, none⟩) s h
    refine L.formSensorSilent _ ?_
    split
    · exact L.coilSilent _ _ h1
    · split
      · exact L.refresh _ h1
      · split
        · exact L.powerSilent _ h1
        · exact h1
  · exact h

theorem expireHold (i : Fin 16) (s : State) (h : P s) : P (expireHold i s) := by
  unfold Machine.expireHold
  split
  · exact L.quiet i s h
  · exact h

theorem expireWireDelay (s : State) (h : P s) : P (expireWireDelay s) := by
  unfold Machine.expireWireDelay
  split
  · exact L.setCondition _ _ _ (L.hazard _ s rfl h)
  · exact h

theorem useInclineSample (n : Byte) (p : List Byte) (s : State) (h : P s) : P (useInclineSample n p s) := by
  unfold Machine.useInclineSample
  dsimp only
  split
  · exact h
  · split
    · exact h
    · refine L.headingToEscape _ _ (L.setCondition _ _ _ (L.refresh _ (L.arrive _ _ ?_)))
      exact L.inputs _ _ rfl rfl rfl (L.hazard _ s rfl h)

theorem useContactSample (n : Byte) (p : List Byte) (s : State) (h : P s) : P (useContactSample n p s) := by
  unfold Machine.useContactSample
  dsimp only
  split
  · exact h
  · split
    · exact h
    · exact L.setCondition _ _ _ (L.setCondition _ _ _ (L.setCondition _ _ _ (L.arrive _ _ (L.hazard _ s rfl h))))

theorem usePowerSample (n : Byte) (p : List Byte) (s : State) (h : P s) : P (usePowerSample n p s) := by
  unfold Machine.usePowerSample
  dsimp only
  split
  · exact h
  · split
    · exact h
    · exact L.powerToHoming _ _ (L.setCondition _ _ _ (L.arrive _ _ (L.hazard _ s rfl h)))

theorem useRainSample (n : Byte) (p : List Byte) (s : State) (h : P s) : P (useRainSample n p s) := by
  unfold Machine.useRainSample
  dsimp only
  split
  · exact h
  · split
    · exact h
    · exact L.setCondition _ _ _ (L.arrive _ _ (L.hazard _ s rfl h))

/-! ### Drive port -/

theorem setDriveRec (d : Drive) (r : DriveRec) (s : State) (h : P s) : P (setDriveRec d r s) :=
  L.dp _ s (List.Sublist.refl _) h

theorem takeToken (s : State) (h : P s) : P (takeToken s) := by
  unfold Machine.takeToken
  split
  · exact h
  · split
    · exact L.dp _ s List.filter_sublist h
    · exact L.dp _ s (List.Sublist.refl _) h

theorem markRaced (a : Option Byte) (s : State) (h : P s) : P (markRaced a s) := by
  cases a with
  | none => exact h
  | some _ => exact L.dp _ s (List.Sublist.refl _) h

theorem sendDone (s : State) (h : P s) : P (sendDone s) := by
  unfold Machine.sendDone
  split
  · exact L.dp _ s (List.Sublist.refl _) h
  all_goals exact h

theorem formDriveConditions (s : State) (h : P s) : P (formDriveConditions s) := by
  have h1 : ∀ s, P s → P (formStallLeft s) := fun s h => by
    unfold formStallLeft
    dsimp only
    split
    · exact h
    · exact L.setCondition _ _ _ (L.dp _ s (List.Sublist.refl _) h)
  have h2 : ∀ s, P s → P (formStallRight s) := fun s h => by
    unfold formStallRight
    dsimp only
    split
    · exact h
    · exact L.setCondition _ _ _ (L.dp _ s (List.Sublist.refl _) h)
  have h3 : ∀ s, P s → P (formOverload s) := fun s h => by
    unfold formOverload
    dsimp only
    split
    · exact h
    · exact L.setCondition _ _ _ (L.dp _ s (List.Sublist.refl _) h)
  have h4 : ∀ s, P s → P (formFault s) := fun s h => by
    unfold formFault
    dsimp only
    split
    · exact h
    · exact L.setCondition _ _ _ (L.dp _ s (List.Sublist.refl _) h)
  exact h4 _ (h3 _ (h2 _ (h1 s h)))

theorem takeStatus (d : Drive) (st : DriveStatus) (s : State) (h : P s) : P (takeStatus d st s) := by
  unfold Machine.takeStatus
  cases d with
  | wheel w =>
    exact L.formDriveConditions _ (L.odometryToHoming _ _ (L.odometryToEscape _ _ (L.setDriveRec _ _ s h)))
  | blade b => exact L.formDriveConditions _ (L.takePercent _ _ _ (L.setDriveRec _ _ s h))
  | deck => exact L.formDriveConditions _ (L.setDriveRec _ _ s h)

theorem endWait (s : State) (h : P s) : P (endWait s) := L.dp _ s (List.Sublist.refl _) h

theorem useDriveStatus (n : Byte) (p : List Byte) (s : State) (h : P s) : P (useDriveStatus n p s) := by
  unfold Machine.useDriveStatus
  split
  · exact h
  · have h1 : P (match s.dp.cycle with
        | .awaitReply f => if f.address = n then Machine.endWait s else s
        | .idle | .sending _ => s) := by
      split
      · split
        · exact L.endWait s h
        · exact h
      all_goals exact h
    dsimp only
    split
    · exact L.takeStatus _ _ _ h1
    · exact h1

theorem expireReply (s : State) (h : P s) : P (expireReply s) := by
  unfold Machine.expireReply
  split
  · dsimp only
    split
    · exact L.formDriveConditions _ (L.setDriveRec _ _ _ (L.endWait s h))
    · exact L.endWait s h
  · exact h

theorem expireRefresh (s : State) (h : P s) : P (expireRefresh s) := by
  unfold Machine.expireRefresh
  split
  · exact L.dp _ _ (List.Sublist.refl _) (L.queueTokens _ s h)
  · exact h

theorem driveWritten (d : Drive) (s : State) (h : P s) : P (driveWritten d s) := by
  unfold Machine.driveWritten
  have h1 := L.setDriveRec d freshDriveRec s h
  generalize Machine.setDriveRec d freshDriveRec s = s1 at h1
  refine L.formDriveConditions _ ?_
  have h2 : P (if s1.tables.mapped d then
      match d with
      | .wheel w => queueToken (.wheelBrake w) s1
      | .blade b => queueToken (.bladeStop b) s1
      | .deck => if s1.env.held.deck = 0 then s1 else queueToken .height s1
      else s1.setDp { s1.dp with queue := s1.dp.queue.filter fun t => t.drive ≠ d }) := by
    split
    · split
      · exact L.queue _ _ h1
      · exact L.queue _ _ h1
      · split
        · exact h1
        · exact L.queue _ _ h1
    · exact L.dp _ _ List.filter_sublist h1
  dsimp only
  split
  · exact L.takePercent _ _ _ h2
  · exact L.refresh _ h2
  · exact L.refresh _ h2

/-! ### Ports -/

theorem mirrorCopy (b : List Byte) (s : State) (h : P s) : P (mirrorCopy b s) := by
  refine L.port _ s ?_ h
  dsimp only
  split
  · left; simp only [List.length_append, List.length_cons, List.length_nil]; omega
  · right; simp only [List.length_append, List.length_drop, List.length_cons, List.length_nil]; omega

theorem throughIntake (p : Port) (f : Frame) (use : State → State) (hu : ∀ s, P s → P (use s)) (s : State) (h : P s) :
    P (throughIntake p f use s) := by
  unfold Machine.throughIntake
  have hc : P (if p = .cp then s else Machine.mirrorCopy (frameBytes f.cls f.h f.payload) s) := by
    split
    · exact h
    · exact L.mirrorCopy _ s h
  dsimp only
  split
  · exact hu _ h
  · exact hu _ hc
  · exact hc
  · exact h
  · exact h

theorem acceptCp (s : State) (h : P s) : P (acceptCp s) := L.setCondition _ _ _ (L.port _ s (.inr (le_refl _)) h)

theorem expireLiveness (s : State) (h : P s) : P (expireLiveness s) := by
  unfold Machine.expireLiveness
  split
  · exact L.setCondition _ _ _ (L.port _ s (.inr (le_refl _)) h)
  · exact h

theorem deliver (p : Port) (f : Frame) (use : State → State) (hu : ∀ s, P s → P (use s)) (s : State) (h : P s) :
    P (deliver p f use s) := by
  unfold Machine.deliver
  split
  · exact h
  · refine L.throughIntake p f use hu _ ?_
    split
    · exact L.acceptCp s h
    · exact h

theorem undefinedClass (p : Port) (c : BitVec 4) (l : List Byte) (s : State) (h : P s) : P (undefinedClass p c l s) := by
  unfold Machine.undefinedClass
  split
  · exact h
  · exact L.refusal _ _ _ _ _ (L.acceptCp s h)

theorem enqueueReply (r t : Byte) (c : Code) (o : Nat) (d : List Byte) (s : State) (h : P s) :
    P (enqueueReply r t c o d s) := L.port _ s (.inr (le_refl _)) h

theorem headOrFree (l : List Byte) (s : State) (h : P s) : P (headOrFree l s).2 := by
  cases l with
  | nil => exact L.fresh _ s h
  | cons b l => exact h

theorem bypass (hd : Header) (p : List Byte) (handle : State → State) (hh : ∀ s, P s → P (handle s)) (s : State) (h : P s) :
    P (bypass hd p handle s) := by
  unfold Machine.bypass
  split
  · exact L.deliver _ _ _ (fun s h => h) s h
  · split
    · exact h
    · split
      · split
        · exact L.enqueueReply _ _ _ _ _ _ (L.headOrFree _ _ (L.headOrFree _ s h))
        · exact h
      · dsimp only
        split
        · exact hh _ (L.acceptCp s h)
        · exact L.acceptCp s h

theorem useDriveOrder (hd : Header) (k : Byte) (o : Option Order) (s : State) (h : P s) : P (useDriveOrder hd k o s) := by
  unfold Machine.useDriveOrder
  split
  · exact L.refusal _ _ _ _ s h
  · exact L.takeOrder _ _ _ _ s h

theorem useUndefinedKind (p : List Byte) (s : State) (h : P s) : P (useUndefinedKind p s) :=
  L.refusal _ _ _ _ _ (L.headOrFree p s h)

theorem handleOrder (hd : Header) (c : Byte) (rest : List Byte) (parse : List Byte → Option Order) (s : State) (h : P s) :
    P (handleOrder hd c rest parse s) := by
  unfold Machine.handleOrder
  have h1 := L.headOrFree rest s h
  dsimp only
  split
  · exact L.enqueueReply _ _ _ _ _ _ (L.takeOrder _ _ _ _ _ h1)
  · exact L.enqueueReply _ _ _ _ _ _ (L.refusal _ _ _ _ _ h1)

/-! ### Management -/

theorem giveAnswer (r t : Byte) (a : Answer) (s : State) (h : P s) : P (giveAnswer r t a s) := by
  unfold Machine.giveAnswer
  refine L.enqueueReply _ _ _ _ _ _ ?_
  split
  · exact L.refusal _ _ _ _ s h
  · exact h

theorem answerRequest (r : Byte) (rest : List Byte) (f : List Byte → State → State × Answer)
    (hf : ∀ a s, P s → P (f a s).1) (s : State) (h : P s) : P (answerRequest r rest f s) := by
  unfold Machine.answerRequest
  split
  · exact L.giveAnswer _ _ _ _ (L.fresh _ s h)
  · exact L.giveAnswer _ _ _ _ (hf _ s h)

theorem refusalAnswer (a : List Byte) (s : State) (h : P s) : P (refusalAnswer a s).1 := by
  unfold Machine.refusalAnswer
  split
  · exact L.emptied s h
  · exact h

theorem setConditions (is : List (Fin 16)) (s : State) (h : P s) :
    P (is.foldl (fun s i => Machine.setCondition i false s) s) := by
  induction is generalizing s with
  | nil => exact h
  | cons i is ih => exact ih _ (L.setCondition i false s h)

theorem coilWritten (c : Fin 4) (old : CoilEntry) (f : Option (Fin 4)) (s : State) (h : P s) : P (coilWritten c old f s) := by
  have key : ∀ (b : Bool) (r : CoilIntake) (k : State → State), (∀ s, P s → P (k s)) →
      P (k (if b then
        (Machine.setIntake c r (s.setDec (s.dec.emptyCoil c))).setDec
          ((Machine.setIntake c r (s.setDec (s.dec.emptyCoil c))).dec.unavailable
            (Machine.setIntake c r (s.setDec (s.dec.emptyCoil c))).tables c)
        else Machine.setIntake c r (s.setDec (s.dec.emptyCoil c)))) := by
    intro b r k hk
    cases b
    · exact hk _ (L.setIntake _ _ _ (L.dec _ s h))
    · exact hk _ (L.dec _ _ (L.setIntake _ _ _ (L.dec _ s h)))
  refine key _ _ (fun s2 => Machine.formSensorSilent (Machine.pendNode (coilNode c)
    (if f = some c ∨ s2.tables.frontCoil = some c then Machine.dropGuideView s2 else s2))) (fun s2 h2 => ?_)
  refine L.formSensorSilent _ (L.pendNode _ _ ?_)
  split
  · exact L.dropGuideView _ h2
  · exact h2

theorem loopWritten (l : Fin 8) (s : State) (h : P s) : P (loopWritten l s) := by
  have key : ∀ (b : Bool) (k : State → State), (∀ s, P s → P (k s)) →
      P (k (if b then Machine.loopLost l (markNotice 18
          (s.setDec ((s.dec.setTracker l (freshTracker s.tables.loop[l].enabled)).emptyLoop l)))
        else s.setDec ((s.dec.setTracker l (freshTracker s.tables.loop[l].enabled)).emptyLoop l))) := by
    intro b k hk
    cases b
    · exact hk _ (L.dec _ s h)
    · exact hk _ (L.loopLost _ _ (L.mark _ _ (L.dec _ s h)))
  refine key _ (fun s2 => if l = s.tables.home.guide then Machine.dropGuideView s2 else s2) (fun s2 h2 => ?_)
  split
  · exact L.dropGuideView _ h2
  · exact h2

theorem hazardWritten (i : Fin 16) (old : HazardEntry) (s : State) (h : P s) : P (hazardWritten i old s) := by
  unfold Machine.hazardWritten
  dsimp only
  have h1 : P (if old.enabled ∧ s.tables.hazard[i].enabled = false then
      setOwed i false (if s.srcState i = .quiet then s else moveSource i .quiet none s) else s) := by
    split
    · refine L.owed _ _ _ ?_
      split
      · exact h
      · exact L.quiet i s h
    · exact h
  generalize (if old.enabled ∧ s.tables.hazard[i].enabled = false then
      setOwed i false (if s.srcState i = .quiet then s else moveSource i .quiet none s) else s) = s1 at h1
  have h2 : P (if old.response = .escape ∧ s.tables.hazard[i].response ≠ .escape then setOwed i false s1 else s1) := by
    split
    · exact L.owed _ _ _ h1
    · exact h1
  generalize (if old.response = .escape ∧ s.tables.hazard[i].response ≠ .escape then setOwed i false s1 else s1) = s2 at h2
  have h3 := L.refresh s2 h2
  split
  · rename_i hc
    exact L.actEvent _ (L.responseChange i) _ (L.raise i _ (by simpa using hc.2.2.1) h3)
  · exact h3

theorem homeWritten (g : Bool) (s : State) (h : P s) : P (homeWritten g s) := by
  have h1 : P (if g then Machine.dropGuideView s else s) := by split <;> [exact L.dropGuideView s h; exact h]
  exact L.derive _ _ h1

theorem nodeGone (a b : SensorNode) (is : List (Fin 16)) (s : State) (h : P s) : P (nodeGone a b is s) := by
  unfold Machine.nodeGone
  split
  · exact L.setConditions is s h
  · exact h

theorem sensorWritten (old : SensorTable) (s : State) (h : P s) : P (sensorWritten old s) :=
  L.formSensorSilent _ (L.nodeGone _ _ _ _ (L.nodeGone _ _ _ _ (L.nodeGone _ _ _ _ (L.nodeGone _ _ _ _
    (L.refresh _ (L.pendNode _ _ (L.pendNode _ _ (L.pendNode _ _ (L.pendNode _ s h)))))))))

theorem entryWritten (id : TableId) (i : Nat) (old : Tables) (g : Bool) (s : State) (h : P s) :
    P (entryWritten id i old g s) := by
  cases id <;> dsimp only [Machine.entryWritten]
  case coil => split <;> [exact L.coilWritten _ _ _ s h; exact h]
  case loop => split <;> [exact L.loopWritten _ s h; exact h]
  case envelope => exact L.refresh s h
  case drive => split <;> [exact L.driveWritten _ s h; exact h]
  case hazard => split <;> [exact L.hazardWritten _ _ s h; exact h]
  case home => exact L.homeWritten _ s h
  case sensor => exact L.sensorWritten _ s h
  all_goals exact h

theorem entriesWritten {α : Type} (ids : α → TableId × Nat) (l : List α) (old : Tables) (g : Bool) (s : State) (h : P s) :
    P (l.foldl (fun s x => Machine.entryWritten (ids x).1 (ids x).2 old g s) s) := by
  induction l generalizing s with
  | nil => exact h
  | cons x l ih => exact ih _ (L.entryWritten _ _ _ _ s h)

theorem tableWritten (id : TableId) (s : State) (h : P s) : P (tableWritten id s) := by
  unfold Machine.tableWritten
  split
  · exact L.reevaluate s h
  · exact h

theorem writeTake (w : WriteReq) (rows : List WriteRow) (s : State) (h : P s) : P (w.take rows s) :=
  L.tableWritten _ _ (L.entriesWritten (fun i => (w.id, i)) _ _ _ _ (L.tables _ s h))

theorem writeTableAnswer (hd : Header) (a : List Byte) (s : State) (h : P s) : P (writeTableAnswer hd a s).1 := by
  unfold Machine.writeTableAnswer
  split
  · split
    · exact h
    · dsimp only
      split
      · exact h
      · split
        · exact h
        · split
          · exact h
          · split
            · exact h
            · split
              · exact h
              · split
                · exact h
                · unfold WriteReq.settle
                  split
                  · exact h
                  · split
                    · exact h
                    · split
                      · exact h
                      · split
                        · exact h
                        · exact L.writeTake _ _ s h
  · exact h

theorem startOperation (r : Byte) (hd : Header) (rest : List Byte) (k : OpKind) (b : State → State)
    (hb : ∀ s, P s → P (b s)) (s : State) (h : P s) : P (startOperation r hd rest k b s) := by
  unfold Machine.startOperation
  split
  · exact L.giveAnswer _ _ _ _ (L.fresh _ s h)
  · split
    · exact L.giveAnswer _ _ _ _ h
    · exact hb _ (L.mgmt _ s h)

theorem beginStore (s : State) (h : P s) : P (beginStore s) := L.mgmt _ _ (L.mgmt _ s h)

theorem completeStore (s : State) (h : P s) : P (completeStore s) := by
  unfold Machine.completeStore
  split
  · exact L.giveAnswer _ _ _ _ (L.mgmt _ s h)
  all_goals exact h

theorem failStore (s : State) (h : P s) : P (failStore s) := by
  unfold Machine.failStore
  split
  · exact L.giveAnswer _ _ _ _ (L.mgmt _ s h)
  all_goals exact h

theorem readMemory (a : MemoryRead) (s : State) (h : P s) : P (readMemory a s).2 := by
  cases a with
  | noAnswer => exact h
  | held => exact h
  | bytes l => exact L.mgmt _ s h

theorem replaceTables (t : Tables) (s : State) (h : P s) : P (replaceTables t s) := by
  unfold Machine.replaceTables
  generalize allEntries.partition (fun x => x.1.resetsDecoder) = l
  exact L.entriesWritten (fun x => x) l.2 _ _ _ (L.reevaluate _ (L.entriesWritten (fun x => x) l.1 _ _ _ (L.tables _ s h)))

theorem loadOutcome (a : MemoryRead) (s : State) (h : P s) : P (loadOutcome a s).1 := by
  unfold Machine.loadOutcome
  have h1 := L.readMemory a s h
  revert h1
  obtain ⟨l, s1⟩ := Machine.readMemory a s
  intro h1
  cases l with
  | none => exact L.mgmt _ s1 h1
  | some l =>
    dsimp only
    generalize checkImage (chainFloor s1) l = r
    cases r with
    | none => exact L.mgmt _ s1 h1
    | some r =>
      obtain ⟨t, c⟩ := r
      dsimp only
      have h2 : P (setMark .good s1) := L.mgmt _ s1 h1
      have h3 : P (setImage .valid (setMark .good s1)) := L.mgmt _ _ h2
      generalize setImage .valid (setMark .good s1) = s3 at h3
      have h4 := L.replaceTables t s3 h3
      split
      · exact h2
      · dsimp only; exact h4

theorem completeLoad (a : MemoryRead) (s : State) (h : P s) : P (completeLoad a s) := by
  unfold Machine.completeLoad
  split
  · exact L.giveAnswer _ _ _ _ (L.loadOutcome a _ (L.mgmt _ s h))
  all_goals exact h

/-! ### Start-up -/

theorem applyStop (s : State) (h : P s) : P (applyStop s) := by
  unfold Machine.applyStop
  have h1 := L.pins { s.pins with stopLatch := false } s h
  dsimp only
  split
  · split
    · exact L.setCondition _ _ _ h1
    · exact L.setCondition _ _ _ (L.setCondition _ _ _ h1)
  · exact h1

theorem pendNodes (l : List (Fin 8)) (s : State) (h : P s) : P (l.foldl (fun s n => Machine.pendNode n s) s) := by
  induction l generalizing s with
  | nil => exact h
  | cons n l ih => exact ih _ (L.pendNode n s h)

theorem readyPorts (s : State) (h : P s) : P (readyPorts s) := L.port _ s (.inl (Nat.zero_le 8)) h

theorem reachReady (s : State) (h : P s) : P (reachReady s) := by
  unfold Machine.reachReady
  dsimp only
  have h1 := L.readyPorts _ (L.ready _ (L.mgmt { s.mgmt with startup := .ready } s h))
  generalize Machine.readyPorts (readyBlocks (s.setMgmt { s.mgmt with startup := .ready })) = s1 at h1
  generalize List.finRange 8 = l
  have h2 := L.pendNodes l s1 h1
  generalize l.foldl (fun s n => Machine.pendNode n s) s1 = s2 at h2
  have h3 : P (Machine.refresh (setActivityCap s2)) := L.derive _ s2 h2
  generalize Machine.refresh (setActivityCap s2) = s3 at h3
  exact L.applyStop _ (L.startWireDelay _ (L.queueTokens _ s3 h3))

theorem placeTables (a : MemoryRead) (s : State) (h : P s) : P (placeTables a s) := by
  unfold Machine.placeTables
  have h1 := L.readMemory a s h
  revert h1
  obtain ⟨l, s1⟩ := Machine.readMemory a s
  intro h1
  have put : ∀ i m t, P (setImage i (setMark m (s1.setTables t))) := fun i m t => by
    have h2 := L.tables t s1 h1
    generalize s1.setTables t = s2 at h2
    have h3 : P (setMark m s2) := L.mgmt _ s2 h2
    generalize setMark m s2 = s3 at h3
    exact L.mgmt _ s3 h3
  cases l with
  | none => exact put _ _ _
  | some l =>
    dsimp only
    generalize checkImage 1 l = r
    cases r with
    | none => exact put _ _ _
    | some r => exact put _ _ _

theorem imageChecked (a : MemoryRead) (s : State) (h : P s) : P (imageChecked a s) := by
  unfold Machine.imageChecked
  have h1 := L.placeTables a s h
  generalize Machine.placeTables a s = s1 at h1
  split
  · exact L.reachReady _ h1
  · exact h

theorem abandonOperation (s : State) (h : P s) : P (abandonOperation s) := by
  unfold Machine.abandonOperation
  have h1 := L.mgmt { s.mgmt with op := none } s h
  dsimp only
  split
  · exact L.mgmt _ _ (L.tables _ _ h1)
  all_goals exact h1

theorem restartDevice (s : State) (h : P s) : P (restartDevice s) := by
  unfold Machine.restartDevice
  dsimp only
  have h1 := L.abandonOperation s h
  generalize Machine.abandonOperation s = s1 at h1
  exact L.reachReady _ (L.port _ s1 (.inr (le_refl _)) h1)

theorem restartAnswer (hd : Header) (a : List Byte) (s : State) (h : P s) : P (restartAnswer hd a s).1 := by
  unfold Machine.restartAnswer
  split
  · exact h
  · split
    · exact h
    · dsimp only; exact L.restartDevice s h

theorem pressStop (s : State) (h : P s) : P (pressStop s) := by
  unfold Machine.pressStop
  have h1 : P (setStopLevel true s) := L.pins _ s h
  dsimp only
  split
  · exact h1
  · split
    · exact L.pins _ _ h1
    · exact L.setCondition _ _ _ h1

theorem releaseStop (s : State) (h : P s) : P (releaseStop s) := by
  unfold Machine.releaseStop
  have h1 : P (setStopLevel false s) := L.pins _ s h
  dsimp only
  split
  · exact L.setCondition _ _ _ h1
  · exact h1

/-! ### Arbiter, reports -/

theorem sendReply (r : Reply) (rest : List Reply) (s : State) (h : P s) : P (sendReply r rest s) := by
  unfold Machine.sendReply
  split
  · exact L.port _ s (.inr (le_refl _)) h
  · exact L.port _ _ (.inr (le_refl _)) (L.port _ s (.inr (le_refl _)) h)
  · exact L.port _ _ (.inr (le_refl _)) (L.port _ s (.inr (le_refl _)) h)

theorem clearNotice (i : Fin 20) (s : State) (h : P s) : P (clearNotice i s) := by
  unfold Machine.clearNotice
  have h1 := L.hazard { s.haz with pending := s.haz.pending &&& ~~~BitVec.twoPow 20 i.val } s rfl h
  dsimp only
  split
  · exact L.noticed _ _ h1
  · exact h1

theorem noticePayload (i : Fin 20) (s : State) (h : P s) : P (noticePayload i s).2 := by
  unfold Machine.noticePayload
  split
  · exact h
  · split
    · exact h
    · split
      · unfold refusalDetail
        dsimp only
        split
        · exact h
        · exact L.fresh _ s h
      · split <;> exact h

theorem sendNotice (i : Fin 20) (s : State) (h : P s) : P (sendNotice i s) :=
  L.port _ _ (.inr (le_refl _)) (L.clearNotice _ _ (L.noticePayload i s h))

theorem lineFree (s : State) (h : P s) : P (lineFree s) := by
  unfold Machine.lineFree Machine.pickFrame
  have h1 := L.port { s.port with line := .free } s (.inr (le_refl _)) h
  generalize s.setPort { s.port with line := .free } = s1 at h1
  split
  · exact L.sendReply _ _ _ h1
  · split
    · exact h1
    · split
      · exact L.sendNotice _ _ h1
      · split
        · rename_i heq
          exact L.port _ _ (.inr (le_refl _)) (L.port _ _ (.inr (by simp [heq])) h1)
        · exact h1

theorem useReport (r : Report) (s : State) (h : P s) : P (useReport r s) := by
  unfold Machine.useReport
  split
  · split
    · exact L.actEvent _ L.popEscape s h
    · exact h
  · split
    · exact L.actEvent _ L.trap s h
    · exact h
  · exact L.setBladeEnable _ s h

theorem deliverReport (p : Report → Bool) (s : State) (h : P s) : P (deliverReport p s) := by
  unfold Machine.deliverReport
  split
  · exact h
  · exact L.useReport _ _ (L.reports _ s h)

/-! ### Frames by their bytes -/

theorem useDriveCommand (hd : Header) (p : List Byte) (s : State) (h : P s) : P (useDriveCommand hd p s) := by
  unfold Machine.useDriveCommand
  split
  · exact L.useUndefinedKind _ s h
  · split
    · exact L.useUndefinedKind _ s h
    · exact L.useDriveOrder _ _ _ s h

omit L in
theorem loopsAnswer (a : List Byte) (s : State) (h : P s) : P (loopsAnswer a s).1 := by
  unfold Machine.loopsAnswer
  split <;> exact h

omit L in
theorem cellsAnswer (a : List Byte) (s : State) (h : P s) : P (cellsAnswer a s).1 := by
  unfold Machine.cellsAnswer
  split <;> exact h

theorem statusBySelector (n : Nat) (a : List Byte) (s : State) (h : P s) : P (statusBySelector n a s).1 := by
  unfold Machine.statusBySelector
  split
  · exact h
  · exact h
  · exact StateLaw.loopsAnswer a s h
  · exact StateLaw.cellsAnswer a s h
  · exact h
  · exact h
  · exact L.refusalAnswer a s h
  · exact h
  · exact h

theorem useReadStatus (rest : List Byte) (s : State) (h : P s) : P (useReadStatus rest s) := by
  refine L.answerRequest _ _ _ (fun a s h => ?_) s h
  split
  · exact h
  · exact L.statusBySelector _ _ s h

theorem useUndefinedCode (c : Byte) (rest : List Byte) (s : State) (h : P s) : P (useUndefinedCode c rest s) :=
  L.giveAnswer _ _ _ _ (L.headOrFree rest s h)

theorem useEmptyRequest (s : State) (h : P s) : P (useEmptyRequest s) :=
  L.giveAnswer _ _ _ _ (L.fresh _ _ (L.fresh _ s h))

theorem useRequest (hd : Header) (p : List Byte) (s : State) (h : P s) : P (useRequest hd p s) := by
  unfold Machine.useRequest
  split
  · exact L.useEmptyRequest s h
  · split
    · exact L.answerRequest _ _ _ (fun _ _ h => h) s h
    · exact L.answerRequest _ _ _ (fun _ _ h => h) s h
    · exact L.answerRequest _ _ _ (fun a s h => L.writeTableAnswer _ a s h) s h
    · exact L.useReadStatus _ s h
    · exact L.handleOrder _ _ _ _ s h
    · exact L.handleOrder _ _ _ _ s h
    · exact L.handleOrder _ _ _ _ s h
    · exact L.handleOrder _ _ _ _ s h
    · exact L.handleOrder _ _ _ _ s h
    · exact L.handleOrder _ _ _ _ s h
    · exact L.startOperation _ _ _ _ _ L.beginStore s h
    · exact L.startOperation _ _ _ _ _ (fun _ h => h) s h
    · exact L.answerRequest _ _ _ (fun a s h => L.restartAnswer _ a s h) s h
    · exact L.useUndefinedCode _ _ s h

theorem useFrame (p : Port) (f : Frame) (s : State) (h : P s) : P (useFrame p f s) := by
  unfold Machine.useFrame
  split
  · exact L.useDriveCommand _ _ s h
  · exact L.useCoilSample _ _ s h
  · exact L.useInclineSample _ _ s h
  · exact L.useContactSample _ _ s h
  · exact L.usePowerSample _ _ s h
  · exact L.useRainSample _ _ s h
  · exact L.useDriveStatus _ _ s h
  · exact h

theorem acceptFrame (p : Port) (f : Frame) (s : State) (h : P s) : P (acceptFrame p f s) := by
  unfold Machine.acceptFrame
  split
  · exact L.undefinedClass _ _ _ s h
  · split
    · exact L.bypass _ _ _ (L.useRequest _ _) s h
    · exact L.deliver _ _ _ (L.useFrame p f) s h

theorem receiveRun (p : Port) (l : List LineByte) (s : State) (h : P s) : P (receiveRun p l s) := by
  unfold Machine.receiveRun
  split
  · exact h
  · exact L.acceptFrame _ _ s h

/-! ### Commands -/

theorem finish {s t : State} (h : P s) (e : finish s = .next t) : P t := by
  cases e; exact L.takeToken s h

omit L in
theorem whenReady (f : State → State) (hf : ∀ s, P s → P (f s)) (s : State) (h : P s) : P (whenReady f s) := by
  unfold Machine.whenReady
  split
  · exact hf s h
  · exact h

/-- Every command keeps `P`. -/
theorem exec {i : Instr} {s t : State} (h : P s) (e : exec i s = .next t) : P t := by
  cases i
  case replyTimerExpiry =>
    cases e
    exact L.markRaced _ _ (L.takeToken _ (StateLaw.whenReady _ L.expireReply s h))
  all_goals refine L.finish (s := _) ?_ e
  case powerOn => exact L.start _ (L.pins _ s h)
  case resetLow => exact L.start _ (L.pins _ s h)
  case resetRise => exact L.start _ (L.pins _ s h)
  case powerLoss => exact L.start _ (L.pins _ s h)
  case imageCheckComplete => exact L.imageChecked _ s h
  case stopPress => exact L.pressStop s h
  case stopRelease => exact L.releaseStop s h
  case damagedFrame => split <;> [exact L.receiveRun _ _ s h; exact h]
  case undefinedClassFrame => exact L.acceptFrame _ _ s h
  case frameWithoutUser => exact L.acceptFrame _ _ s h
  case coilSample => exact L.deliver _ _ _ (L.useCoilSample _ _) s h
  case inclineSample => exact L.deliver _ _ _ (L.useInclineSample _ _) s h
  case contactSample => exact L.deliver _ _ _ (L.useContactSample _ _) s h
  case powerSample => exact L.deliver _ _ _ (L.usePowerSample _ _) s h
  case rainSample => exact L.deliver _ _ _ (L.useRainSample _ _) s h
  case driveStatus => exact L.deliver _ _ _ (L.useDriveStatus _ _) s h
  case wheelSpeed => exact L.deliver _ _ _ (L.useDriveOrder _ _ _) s h
  case bladeSpeed => exact L.deliver _ _ _ (L.useDriveOrder _ _ _) s h
  case bladeStart => exact L.deliver _ _ _ (L.useDriveOrder _ _ _) s h
  case bladeStop => exact L.deliver _ _ _ (L.useDriveOrder _ _ _) s h
  case deckHeight => exact L.deliver _ _ _ (L.useDriveOrder _ _ _) s h
  case brake => exact L.deliver _ _ _ (L.useDriveOrder _ _ _) s h
  case ping => exact L.bypass _ _ _ (L.answerRequest _ _ _ fun _ _ h => h) s h
  case undefinedRequest => exact L.bypass _ _ _ (L.useRequest _ _) s h
  case readTable => exact L.bypass _ _ _ (L.answerRequest _ _ _ fun _ _ h => h) s h
  case writeTable => exact L.bypass _ _ _ (L.answerRequest _ _ _ (L.writeTableAnswer _)) s h
  case readStatusStack => exact L.bypass _ _ _ (L.answerRequest _ _ _ fun _ _ h => h) s h
  case readStatusEnvelope => exact L.bypass _ _ _ (L.answerRequest _ _ _ fun _ _ h => h) s h
  case readStatusLoops => exact L.bypass _ _ _ (L.answerRequest _ _ _ (StateLaw.loopsAnswer (P := P))) s h
  case readStatusCells => exact L.bypass _ _ _ (L.answerRequest _ _ _ (StateLaw.cellsAnswer (P := P))) s h
  case readStatusHazards => exact L.bypass _ _ _ (L.answerRequest _ _ _ fun _ _ h => h) s h
  case readStatusDrives => exact L.bypass _ _ _ (L.answerRequest _ _ _ fun _ _ h => h) s h
  case readStatusRefusal => exact L.bypass _ _ _ (L.answerRequest _ _ _ L.refusalAnswer) s h
  case readStatusImage => exact L.bypass _ _ _ (L.answerRequest _ _ _ fun _ _ h => h) s h
  case startMow => exact L.bypass _ _ _ (L.handleOrder _ _ _ _) s h
  case goHome => exact L.bypass _ _ _ (L.handleOrder _ _ _ _) s h
  case leaveDock => exact L.bypass _ _ _ (L.handleOrder _ _ _ _) s h
  case pause => exact L.bypass _ _ _ (L.handleOrder _ _ _ _) s h
  case resume => exact L.bypass _ _ _ (L.handleOrder _ _ _ _) s h
  case runManoeuvre => exact L.bypass _ _ _ (L.handleOrder _ _ _ _) s h
  case storeImage => exact L.bypass _ _ _ (L.startOperation _ _ _ _ _ L.beginStore) s h
  case loadImage => exact L.bypass _ _ _ (L.startOperation _ _ _ _ _ fun _ h => h) s h
  case restart => exact L.bypass _ _ _ (L.answerRequest _ _ _ (L.restartAnswer _)) s h
  case storeComplete => exact StateLaw.whenReady _ L.completeStore s h
  case storeFailure => exact StateLaw.whenReady _ L.failStore s h
  case loadComplete => exact StateLaw.whenReady _ (L.completeLoad _) s h
  case fadeTimerExpiry => exact StateLaw.whenReady _ (L.expireFade _) s h
  case nodeDeadlineExpiry => exact StateLaw.whenReady _ (L.expireDeadline _) s h
  case holdTimerExpiry => exact StateLaw.whenReady _ (L.expireHold _) s h
  case wireLostDelayExpiry => exact StateLaw.whenReady _ L.expireWireDelay s h
  case stepTimerExpiry => exact StateLaw.whenReady _ L.expireStep s h
  case escapeCompletionReport => exact StateLaw.whenReady _ (L.deliverReport _) s h
  case trapReport => exact StateLaw.whenReady _ (L.deliverReport _) s h
  case stopStepStart => exact StateLaw.whenReady _ (L.deliverReport _) s h
  case sendComplete => exact StateLaw.whenReady _ L.sendDone s h
  case refreshTimerExpiry => exact StateLaw.whenReady _ L.expireRefresh s h
  case livenessTimerExpiry => exact StateLaw.whenReady _ L.expireLiveness s h
  case cpLineFree => split <;> [exact L.lineFree s h; exact h]

/-- Every step keeps `P` when taking a command off the queue and the passage of a millisecond do. -/
theorem step (hq : ∀ x s, P s → P (s.setPending x)) (ht : ∀ s, P s → P (tick s)) {s t : State} (h : P s)
    (e : step s = .next t) : P t := by
  unfold Machine.step at e
  split at e
  · exact L.exec (hq _ s h) e
  · unfold idle at e
    split at e
    · exact L.exec h e
    · cases e
      split
      · exact ht s h
      · exact h

end StateLaw

/-- Every command answers a next state. -/
theorem exec_next (i : Instr) (s : State) : ∃ t, exec i s = .next t := by
  cases i <;> exact ⟨_, rfl⟩

end Sys2Proof.Machine
end

