-- ==== Sys2Proof/Laws/Frame.lean ====
section
/-! SUPPORT. What each shared operation leaves as it was, field by field. -/

namespace Sys2Proof.Machine

variable (s : State)

/-! ### Tokens -/

@[simp] theorem queueToken_tables (t : Token) : (queueToken t s).tables = s.tables := by unfold queueToken; split <;> rfl
@[simp] theorem queueToken_dec (t : Token) : (queueToken t s).dec = s.dec := by unfold queueToken; split <;> rfl
@[simp] theorem queueToken_env (t : Token) : (queueToken t s).env = s.env := by unfold queueToken; split <;> rfl
@[simp] theorem queueToken_act (t : Token) : (queueToken t s).act = s.act := by unfold queueToken; split <;> rfl
@[simp] theorem queueToken_haz (t : Token) : (queueToken t s).haz = s.haz := by unfold queueToken; split <;> rfl
@[simp] theorem queueToken_exe (t : Token) : (queueToken t s).exe = s.exe := by unfold queueToken; split <;> rfl
@[simp] theorem queueToken_home (t : Token) : (queueToken t s).home = s.home := by unfold queueToken; split <;> rfl
@[simp] theorem queueToken_gate (t : Token) : (queueToken t s).gate = s.gate := by unfold queueToken; split <;> rfl
@[simp] theorem queueToken_port (t : Token) : (queueToken t s).port = s.port := by unfold queueToken; split <;> rfl
@[simp] theorem queueToken_mgmt (t : Token) : (queueToken t s).mgmt = s.mgmt := by unfold queueToken; split <;> rfl
@[simp] theorem queueToken_pins (t : Token) : (queueToken t s).pins = s.pins := by unfold queueToken; split <;> rfl
@[simp] theorem queueToken_reports (t : Token) : (queueToken t s).reports = s.reports := by unfold queueToken; split <;> rfl
@[simp] theorem queueToken_fresh (t : Token) : (queueToken t s).fresh = s.fresh := by unfold queueToken; split <;> rfl
@[simp] theorem queueToken_pending (t : Token) : (queueToken t s).pending = s.pending := by unfold queueToken; split <;> rfl

@[simp] theorem queueToken_dp_records (t : Token) : (queueToken t s).dp.records = s.dp.records := by unfold queueToken; split <;> rfl
@[simp] theorem queueToken_dp_cycle (t : Token) : (queueToken t s).dp.cycle = s.dp.cycle := by unfold queueToken; split <;> rfl
@[simp] theorem queueToken_dp_replyTimer (t : Token) : (queueToken t s).dp.replyTimer = s.dp.replyTimer := by unfold queueToken; split <;> rfl
@[simp] theorem queueToken_dp_refreshTimer (t : Token) : (queueToken t s).dp.refreshTimer = s.dp.refreshTimer := by unfold queueToken; split <;> rfl
@[simp] theorem queueToken_dp_stallLeft (t : Token) : (queueToken t s).dp.stallLeft = s.dp.stallLeft := by unfold queueToken; split <;> rfl
@[simp] theorem queueToken_dp_stallRight (t : Token) : (queueToken t s).dp.stallRight = s.dp.stallRight := by unfold queueToken; split <;> rfl
@[simp] theorem queueToken_dp_overload (t : Token) : (queueToken t s).dp.overload = s.dp.overload := by unfold queueToken; split <;> rfl
@[simp] theorem queueToken_dp_fault (t : Token) : (queueToken t s).dp.fault = s.dp.fault := by unfold queueToken; split <;> rfl
@[simp] theorem queueToken_dp_raced (t : Token) : (queueToken t s).dp.raced = s.dp.raced := by unfold queueToken; split <;> rfl

@[simp] theorem queueTokens_tables (ts : List Token) : (queueTokens ts s).tables = s.tables := by
  unfold queueTokens; induction ts generalizing s with
  | nil => rfl
  | cons t ts ih => rw [List.foldl_cons, ih]; simp
@[simp] theorem queueTokens_dec (ts : List Token) : (queueTokens ts s).dec = s.dec := by
  unfold queueTokens; induction ts generalizing s with
  | nil => rfl
  | cons t ts ih => rw [List.foldl_cons, ih]; simp
@[simp] theorem queueTokens_env (ts : List Token) : (queueTokens ts s).env = s.env := by
  unfold queueTokens; induction ts generalizing s with
  | nil => rfl
  | cons t ts ih => rw [List.foldl_cons, ih]; simp
@[simp] theorem queueTokens_act (ts : List Token) : (queueTokens ts s).act = s.act := by
  unfold queueTokens; induction ts generalizing s with
  | nil => rfl
  | cons t ts ih => rw [List.foldl_cons, ih]; simp
@[simp] theorem queueTokens_haz (ts : List Token) : (queueTokens ts s).haz = s.haz := by
  unfold queueTokens; induction ts generalizing s with
  | nil => rfl
  | cons t ts ih => rw [List.foldl_cons, ih]; simp
@[simp] theorem queueTokens_exe (ts : List Token) : (queueTokens ts s).exe = s.exe := by
  unfold queueTokens; induction ts generalizing s with
  | nil => rfl
  | cons t ts ih => rw [List.foldl_cons, ih]; simp
@[simp] theorem queueTokens_home (ts : List Token) : (queueTokens ts s).home = s.home := by
  unfold queueTokens; induction ts generalizing s with
  | nil => rfl
  | cons t ts ih => rw [List.foldl_cons, ih]; simp
@[simp] theorem queueTokens_gate (ts : List Token) : (queueTokens ts s).gate = s.gate := by
  unfold queueTokens; induction ts generalizing s with
  | nil => rfl
  | cons t ts ih => rw [List.foldl_cons, ih]; simp
@[simp] theorem queueTokens_port (ts : List Token) : (queueTokens ts s).port = s.port := by
  unfold queueTokens; induction ts generalizing s with
  | nil => rfl
  | cons t ts ih => rw [List.foldl_cons, ih]; simp
@[simp] theorem queueTokens_mgmt (ts : List Token) : (queueTokens ts s).mgmt = s.mgmt := by
  unfold queueTokens; induction ts generalizing s with
  | nil => rfl
  | cons t ts ih => rw [List.foldl_cons, ih]; simp
@[simp] theorem queueTokens_pins (ts : List Token) : (queueTokens ts s).pins = s.pins := by
  unfold queueTokens; induction ts generalizing s with
  | nil => rfl
  | cons t ts ih => rw [List.foldl_cons, ih]; simp
@[simp] theorem queueTokens_reports (ts : List Token) : (queueTokens ts s).reports = s.reports := by
  unfold queueTokens; induction ts generalizing s with
  | nil => rfl
  | cons t ts ih => rw [List.foldl_cons, ih]; simp
@[simp] theorem queueTokens_fresh (ts : List Token) : (queueTokens ts s).fresh = s.fresh := by
  unfold queueTokens; induction ts generalizing s with
  | nil => rfl
  | cons t ts ih => rw [List.foldl_cons, ih]; simp
@[simp] theorem queueTokens_pending (ts : List Token) : (queueTokens ts s).pending = s.pending := by
  unfold queueTokens; induction ts generalizing s with
  | nil => rfl
  | cons t ts ih => rw [List.foldl_cons, ih]; simp

@[simp] theorem queueTokens_dp_records (ts : List Token) : (queueTokens ts s).dp.records = s.dp.records := by
  unfold queueTokens; induction ts generalizing s with
  | nil => rfl
  | cons t ts ih => rw [List.foldl_cons, ih]; simp
@[simp] theorem queueTokens_dp_cycle (ts : List Token) : (queueTokens ts s).dp.cycle = s.dp.cycle := by
  unfold queueTokens; induction ts generalizing s with
  | nil => rfl
  | cons t ts ih => rw [List.foldl_cons, ih]; simp
@[simp] theorem queueTokens_dp_replyTimer (ts : List Token) : (queueTokens ts s).dp.replyTimer = s.dp.replyTimer := by
  unfold queueTokens; induction ts generalizing s with
  | nil => rfl
  | cons t ts ih => rw [List.foldl_cons, ih]; simp
@[simp] theorem queueTokens_dp_refreshTimer (ts : List Token) : (queueTokens ts s).dp.refreshTimer = s.dp.refreshTimer := by
  unfold queueTokens; induction ts generalizing s with
  | nil => rfl
  | cons t ts ih => rw [List.foldl_cons, ih]; simp
@[simp] theorem queueTokens_dp_stallLeft (ts : List Token) : (queueTokens ts s).dp.stallLeft = s.dp.stallLeft := by
  unfold queueTokens; induction ts generalizing s with
  | nil => rfl
  | cons t ts ih => rw [List.foldl_cons, ih]; simp
@[simp] theorem queueTokens_dp_stallRight (ts : List Token) : (queueTokens ts s).dp.stallRight = s.dp.stallRight := by
  unfold queueTokens; induction ts generalizing s with
  | nil => rfl
  | cons t ts ih => rw [List.foldl_cons, ih]; simp
@[simp] theorem queueTokens_dp_overload (ts : List Token) : (queueTokens ts s).dp.overload = s.dp.overload := by
  unfold queueTokens; induction ts generalizing s with
  | nil => rfl
  | cons t ts ih => rw [List.foldl_cons, ih]; simp
@[simp] theorem queueTokens_dp_fault (ts : List Token) : (queueTokens ts s).dp.fault = s.dp.fault := by
  unfold queueTokens; induction ts generalizing s with
  | nil => rfl
  | cons t ts ih => rw [List.foldl_cons, ih]; simp
@[simp] theorem queueTokens_dp_raced (ts : List Token) : (queueTokens ts s).dp.raced = s.dp.raced := by
  unfold queueTokens; induction ts generalizing s with
  | nil => rfl
  | cons t ts ih => rw [List.foldl_cons, ih]; simp

/-! ### Notices, sources -/

@[simp] theorem markNotice_tables (i : Fin 20) : (markNotice i s).tables = s.tables := rfl
@[simp] theorem markNotice_dec (i : Fin 20) : (markNotice i s).dec = s.dec := rfl
@[simp] theorem markNotice_env (i : Fin 20) : (markNotice i s).env = s.env := rfl
@[simp] theorem markNotice_act (i : Fin 20) : (markNotice i s).act = s.act := rfl
@[simp] theorem markNotice_exe (i : Fin 20) : (markNotice i s).exe = s.exe := rfl
@[simp] theorem markNotice_home (i : Fin 20) : (markNotice i s).home = s.home := rfl
@[simp] theorem markNotice_gate (i : Fin 20) : (markNotice i s).gate = s.gate := rfl
@[simp] theorem markNotice_dp (i : Fin 20) : (markNotice i s).dp = s.dp := rfl
@[simp] theorem markNotice_port (i : Fin 20) : (markNotice i s).port = s.port := rfl
@[simp] theorem markNotice_mgmt (i : Fin 20) : (markNotice i s).mgmt = s.mgmt := rfl
@[simp] theorem markNotice_pins (i : Fin 20) : (markNotice i s).pins = s.pins := rfl
@[simp] theorem markNotice_reports (i : Fin 20) : (markNotice i s).reports = s.reports := rfl
@[simp] theorem markNotice_fresh (i : Fin 20) : (markNotice i s).fresh = s.fresh := rfl
@[simp] theorem markNotice_pending (i : Fin 20) : (markNotice i s).pending = s.pending := rfl

@[simp] theorem markNotice_haz_sources (i : Fin 20) : (markNotice i s).haz.sources = s.haz.sources := rfl
@[simp] theorem markNotice_haz_nodes (i : Fin 20) : (markNotice i s).haz.nodes = s.haz.nodes := rfl
@[simp] theorem markNotice_haz_wireDelay (i : Fin 20) : (markNotice i s).haz.wireDelay = s.haz.wireDelay := rfl
@[simp] theorem markNotice_haz_kept (i : Fin 20) : (markNotice i s).haz.kept = s.haz.kept := rfl

@[simp] theorem setSource_tables (i : Fin 16) (r : SrcRec) : (setSource i r s).tables = s.tables := rfl
@[simp] theorem setSource_dec (i : Fin 16) (r : SrcRec) : (setSource i r s).dec = s.dec := rfl
@[simp] theorem setSource_env (i : Fin 16) (r : SrcRec) : (setSource i r s).env = s.env := rfl
@[simp] theorem setSource_act (i : Fin 16) (r : SrcRec) : (setSource i r s).act = s.act := rfl
@[simp] theorem setSource_exe (i : Fin 16) (r : SrcRec) : (setSource i r s).exe = s.exe := rfl
@[simp] theorem setSource_home (i : Fin 16) (r : SrcRec) : (setSource i r s).home = s.home := rfl
@[simp] theorem setSource_gate (i : Fin 16) (r : SrcRec) : (setSource i r s).gate = s.gate := rfl
@[simp] theorem setSource_dp (i : Fin 16) (r : SrcRec) : (setSource i r s).dp = s.dp := rfl
@[simp] theorem setSource_port (i : Fin 16) (r : SrcRec) : (setSource i r s).port = s.port := rfl
@[simp] theorem setSource_mgmt (i : Fin 16) (r : SrcRec) : (setSource i r s).mgmt = s.mgmt := rfl
@[simp] theorem setSource_pins (i : Fin 16) (r : SrcRec) : (setSource i r s).pins = s.pins := rfl
@[simp] theorem setSource_reports (i : Fin 16) (r : SrcRec) : (setSource i r s).reports = s.reports := rfl
@[simp] theorem setSource_fresh (i : Fin 16) (r : SrcRec) : (setSource i r s).fresh = s.fresh := rfl
@[simp] theorem setSource_pending (i : Fin 16) (r : SrcRec) : (setSource i r s).pending = s.pending := rfl

@[simp] theorem setSource_haz_pending (i : Fin 16) (r : SrcRec) : (setSource i r s).haz.pending = s.haz.pending := rfl
@[simp] theorem setSource_haz_nodes (i : Fin 16) (r : SrcRec) : (setSource i r s).haz.nodes = s.haz.nodes := rfl
@[simp] theorem setSource_haz_wireDelay (i : Fin 16) (r : SrcRec) : (setSource i r s).haz.wireDelay = s.haz.wireDelay := rfl
@[simp] theorem setSource_haz_kept (i : Fin 16) (r : SrcRec) : (setSource i r s).haz.kept = s.haz.kept := rfl

@[simp] theorem setOwed_tables (i : Fin 16) (v : Bool) : (setOwed i v s).tables = s.tables := rfl
@[simp] theorem setOwed_dec (i : Fin 16) (v : Bool) : (setOwed i v s).dec = s.dec := rfl
@[simp] theorem setOwed_env (i : Fin 16) (v : Bool) : (setOwed i v s).env = s.env := rfl
@[simp] theorem setOwed_act (i : Fin 16) (v : Bool) : (setOwed i v s).act = s.act := rfl
@[simp] theorem setOwed_exe (i : Fin 16) (v : Bool) : (setOwed i v s).exe = s.exe := rfl
@[simp] theorem setOwed_home (i : Fin 16) (v : Bool) : (setOwed i v s).home = s.home := rfl
@[simp] theorem setOwed_gate (i : Fin 16) (v : Bool) : (setOwed i v s).gate = s.gate := rfl
@[simp] theorem setOwed_dp (i : Fin 16) (v : Bool) : (setOwed i v s).dp = s.dp := rfl
@[simp] theorem setOwed_port (i : Fin 16) (v : Bool) : (setOwed i v s).port = s.port := rfl
@[simp] theorem setOwed_mgmt (i : Fin 16) (v : Bool) : (setOwed i v s).mgmt = s.mgmt := rfl
@[simp] theorem setOwed_pins (i : Fin 16) (v : Bool) : (setOwed i v s).pins = s.pins := rfl
@[simp] theorem setOwed_reports (i : Fin 16) (v : Bool) : (setOwed i v s).reports = s.reports := rfl
@[simp] theorem setOwed_fresh (i : Fin 16) (v : Bool) : (setOwed i v s).fresh = s.fresh := rfl
@[simp] theorem setOwed_pending (i : Fin 16) (v : Bool) : (setOwed i v s).pending = s.pending := rfl

@[simp] theorem setOwed_haz_pending (i : Fin 16) (v : Bool) : (setOwed i v s).haz.pending = s.haz.pending := rfl
@[simp] theorem setOwed_haz_nodes (i : Fin 16) (v : Bool) : (setOwed i v s).haz.nodes = s.haz.nodes := rfl
@[simp] theorem setOwed_haz_wireDelay (i : Fin 16) (v : Bool) : (setOwed i v s).haz.wireDelay = s.haz.wireDelay := rfl
@[simp] theorem setOwed_haz_kept (i : Fin 16) (v : Bool) : (setOwed i v s).haz.kept = s.haz.kept := rfl

/-! ### Derivation -/

@[simp] theorem refresh_tables : (refresh s).tables = s.tables := by unfold refresh; simp
@[simp] theorem refresh_dec : (refresh s).dec = s.dec := by unfold refresh; simp
@[simp] theorem refresh_act : (refresh s).act = s.act := by unfold refresh; simp
@[simp] theorem refresh_haz : (refresh s).haz = s.haz := by unfold refresh; simp
@[simp] theorem refresh_exe : (refresh s).exe = s.exe := by unfold refresh; simp
@[simp] theorem refresh_home : (refresh s).home = s.home := by unfold refresh; simp
@[simp] theorem refresh_gate : (refresh s).gate = s.gate := by unfold refresh; simp
@[simp] theorem refresh_port : (refresh s).port = s.port := by unfold refresh; simp
@[simp] theorem refresh_mgmt : (refresh s).mgmt = s.mgmt := by unfold refresh; simp
@[simp] theorem refresh_pins : (refresh s).pins = s.pins := by unfold refresh; simp
@[simp] theorem refresh_reports : (refresh s).reports = s.reports := by unfold refresh; simp
@[simp] theorem refresh_fresh : (refresh s).fresh = s.fresh := by unfold refresh; simp
@[simp] theorem refresh_pending : (refresh s).pending = s.pending := by unfold refresh; simp

@[simp] theorem refresh_dp_records : (refresh s).dp.records = s.dp.records := by unfold refresh; simp
@[simp] theorem refresh_dp_cycle : (refresh s).dp.cycle = s.dp.cycle := by unfold refresh; simp
@[simp] theorem refresh_dp_replyTimer : (refresh s).dp.replyTimer = s.dp.replyTimer := by unfold refresh; simp
@[simp] theorem refresh_dp_refreshTimer : (refresh s).dp.refreshTimer = s.dp.refreshTimer := by unfold refresh; simp
@[simp] theorem refresh_dp_stallLeft : (refresh s).dp.stallLeft = s.dp.stallLeft := by unfold refresh; simp
@[simp] theorem refresh_dp_stallRight : (refresh s).dp.stallRight = s.dp.stallRight := by unfold refresh; simp
@[simp] theorem refresh_dp_overload : (refresh s).dp.overload = s.dp.overload := by unfold refresh; simp
@[simp] theorem refresh_dp_fault : (refresh s).dp.fault = s.dp.fault := by unfold refresh; simp
@[simp] theorem refresh_dp_raced : (refresh s).dp.raced = s.dp.raced := by unfold refresh; simp

@[simp] theorem refresh_env_n : (refresh s).env.n = s.env.n := by unfold refresh; simp
@[simp] theorem refresh_env_pitch : (refresh s).env.pitch = s.env.pitch := by unfold refresh; simp
@[simp] theorem refresh_env_roll : (refresh s).env.roll = s.env.roll := by unfold refresh; simp
@[simp] theorem refresh_env_percents : (refresh s).env.percents = s.env.percents := by unfold refresh; simp
@[simp] theorem refresh_env_req : (refresh s).env.req = s.env.req := by unfold refresh; simp

@[simp] theorem refresh_env_caps : (refresh s).env.caps = formCaps s := by unfold refresh; simp
@[simp] theorem refresh_env_k : (refresh s).env.k = (formCaps s).effective := by unfold refresh; simp
@[simp] theorem refresh_env_held : (refresh s).env.held = formHeld s (formCaps s).effective := by unfold refresh; simp

@[simp] theorem setActivityCap_tables : (setActivityCap s).tables = s.tables := rfl
@[simp] theorem setActivityCap_dec : (setActivityCap s).dec = s.dec := rfl
@[simp] theorem setActivityCap_act : (setActivityCap s).act = s.act := rfl
@[simp] theorem setActivityCap_haz : (setActivityCap s).haz = s.haz := rfl
@[simp] theorem setActivityCap_exe : (setActivityCap s).exe = s.exe := rfl
@[simp] theorem setActivityCap_home : (setActivityCap s).home = s.home := rfl
@[simp] theorem setActivityCap_gate : (setActivityCap s).gate = s.gate := rfl
@[simp] theorem setActivityCap_dp : (setActivityCap s).dp = s.dp := rfl
@[simp] theorem setActivityCap_port : (setActivityCap s).port = s.port := rfl
@[simp] theorem setActivityCap_mgmt : (setActivityCap s).mgmt = s.mgmt := rfl
@[simp] theorem setActivityCap_pins : (setActivityCap s).pins = s.pins := rfl
@[simp] theorem setActivityCap_reports : (setActivityCap s).reports = s.reports := rfl
@[simp] theorem setActivityCap_fresh : (setActivityCap s).fresh = s.fresh := rfl
@[simp] theorem setActivityCap_pending : (setActivityCap s).pending = s.pending := rfl

@[simp] theorem setActivityCap_env_n : (setActivityCap s).env.n = s.env.n := rfl
@[simp] theorem setActivityCap_env_pitch : (setActivityCap s).env.pitch = s.env.pitch := rfl
@[simp] theorem setActivityCap_env_roll : (setActivityCap s).env.roll = s.env.roll := rfl
@[simp] theorem setActivityCap_env_percents : (setActivityCap s).env.percents = s.env.percents := rfl
@[simp] theorem setActivityCap_env_k : (setActivityCap s).env.k = s.env.k := rfl
@[simp] theorem setActivityCap_env_req : (setActivityCap s).env.req = s.env.req := rfl
@[simp] theorem setActivityCap_env_held : (setActivityCap s).env.held = s.env.held := rfl
@[simp] theorem setActivityCap_env_caps :
    (setActivityCap s).env.caps = { s.env.caps with activity := activityCap s.tables s.top } := rfl
@[simp] theorem formCaps_activity : (formCaps s).activity = s.env.caps.activity := rfl

@[simp] theorem writeWheels_tables (l r : Int) : (writeWheels l r s).tables = s.tables := by unfold writeWheels; simp
@[simp] theorem writeWheels_dec (l r : Int) : (writeWheels l r s).dec = s.dec := by unfold writeWheels; simp
@[simp] theorem writeWheels_act (l r : Int) : (writeWheels l r s).act = s.act := by unfold writeWheels; simp
@[simp] theorem writeWheels_haz (l r : Int) : (writeWheels l r s).haz = s.haz := by unfold writeWheels; simp
@[simp] theorem writeWheels_exe (l r : Int) : (writeWheels l r s).exe = s.exe := by unfold writeWheels; simp
@[simp] theorem writeWheels_home (l r : Int) : (writeWheels l r s).home = s.home := by unfold writeWheels; simp
@[simp] theorem writeWheels_gate (l r : Int) : (writeWheels l r s).gate = s.gate := by unfold writeWheels; simp
@[simp] theorem writeWheels_port (l r : Int) : (writeWheels l r s).port = s.port := by unfold writeWheels; simp
@[simp] theorem writeWheels_mgmt (l r : Int) : (writeWheels l r s).mgmt = s.mgmt := by unfold writeWheels; simp
@[simp] theorem writeWheels_pins (l r : Int) : (writeWheels l r s).pins = s.pins := by unfold writeWheels; simp
@[simp] theorem writeWheels_reports (l r : Int) : (writeWheels l r s).reports = s.reports := by unfold writeWheels; simp
@[simp] theorem writeWheels_fresh (l r : Int) : (writeWheels l r s).fresh = s.fresh := by unfold writeWheels; simp
@[simp] theorem writeWheels_pending (l r : Int) : (writeWheels l r s).pending = s.pending := by unfold writeWheels; simp

@[simp] theorem writeWheels_dp_records (l r : Int) : (writeWheels l r s).dp.records = s.dp.records := by unfold writeWheels; simp
@[simp] theorem writeWheels_dp_cycle (l r : Int) : (writeWheels l r s).dp.cycle = s.dp.cycle := by unfold writeWheels; simp
@[simp] theorem writeWheels_dp_replyTimer (l r : Int) : (writeWheels l r s).dp.replyTimer = s.dp.replyTimer := by unfold writeWheels; simp
@[simp] theorem writeWheels_dp_refreshTimer (l r : Int) : (writeWheels l r s).dp.refreshTimer = s.dp.refreshTimer := by unfold writeWheels; simp
@[simp] theorem writeWheels_dp_stallLeft (l r : Int) : (writeWheels l r s).dp.stallLeft = s.dp.stallLeft := by unfold writeWheels; simp
@[simp] theorem writeWheels_dp_stallRight (l r : Int) : (writeWheels l r s).dp.stallRight = s.dp.stallRight := by unfold writeWheels; simp
@[simp] theorem writeWheels_dp_overload (l r : Int) : (writeWheels l r s).dp.overload = s.dp.overload := by unfold writeWheels; simp
@[simp] theorem writeWheels_dp_fault (l r : Int) : (writeWheels l r s).dp.fault = s.dp.fault := by unfold writeWheels; simp
@[simp] theorem writeWheels_dp_raced (l r : Int) : (writeWheels l r s).dp.raced = s.dp.raced := by unfold writeWheels; simp

@[simp] theorem writeBlades_tables (bs : List Blade) (n : Nat) : (writeBlades bs n s).tables = s.tables := by unfold writeBlades; simp
@[simp] theorem writeBlades_dec (bs : List Blade) (n : Nat) : (writeBlades bs n s).dec = s.dec := by unfold writeBlades; simp
@[simp] theorem writeBlades_act (bs : List Blade) (n : Nat) : (writeBlades bs n s).act = s.act := by unfold writeBlades; simp
@[simp] theorem writeBlades_haz (bs : List Blade) (n : Nat) : (writeBlades bs n s).haz = s.haz := by unfold writeBlades; simp
@[simp] theorem writeBlades_exe (bs : List Blade) (n : Nat) : (writeBlades bs n s).exe = s.exe := by unfold writeBlades; simp
@[simp] theorem writeBlades_home (bs : List Blade) (n : Nat) : (writeBlades bs n s).home = s.home := by unfold writeBlades; simp
@[simp] theorem writeBlades_gate (bs : List Blade) (n : Nat) : (writeBlades bs n s).gate = s.gate := by unfold writeBlades; simp
@[simp] theorem writeBlades_port (bs : List Blade) (n : Nat) : (writeBlades bs n s).port = s.port := by unfold writeBlades; simp
@[simp] theorem writeBlades_mgmt (bs : List Blade) (n : Nat) : (writeBlades bs n s).mgmt = s.mgmt := by unfold writeBlades; simp
@[simp] theorem writeBlades_pins (bs : List Blade) (n : Nat) : (writeBlades bs n s).pins = s.pins := by unfold writeBlades; simp
@[simp] theorem writeBlades_reports (bs : List Blade) (n : Nat) : (writeBlades bs n s).reports = s.reports := by unfold writeBlades; simp
@[simp] theorem writeBlades_fresh (bs : List Blade) (n : Nat) : (writeBlades bs n s).fresh = s.fresh := by unfold writeBlades; simp
@[simp] theorem writeBlades_pending (bs : List Blade) (n : Nat) : (writeBlades bs n s).pending = s.pending := by unfold writeBlades; simp

@[simp] theorem writeBlades_dp_records (bs : List Blade) (n : Nat) : (writeBlades bs n s).dp.records = s.dp.records := by unfold writeBlades; simp
@[simp] theorem writeBlades_dp_cycle (bs : List Blade) (n : Nat) : (writeBlades bs n s).dp.cycle = s.dp.cycle := by unfold writeBlades; simp
@[simp] theorem writeBlades_dp_replyTimer (bs : List Blade) (n : Nat) : (writeBlades bs n s).dp.replyTimer = s.dp.replyTimer := by
  unfold writeBlades; simp
@[simp] theorem writeBlades_dp_refreshTimer (bs : List Blade) (n : Nat) : (writeBlades bs n s).dp.refreshTimer = s.dp.refreshTimer := by
  unfold writeBlades; simp
@[simp] theorem writeBlades_dp_stallLeft (bs : List Blade) (n : Nat) : (writeBlades bs n s).dp.stallLeft = s.dp.stallLeft := by
  unfold writeBlades; simp
@[simp] theorem writeBlades_dp_stallRight (bs : List Blade) (n : Nat) : (writeBlades bs n s).dp.stallRight = s.dp.stallRight := by
  unfold writeBlades; simp
@[simp] theorem writeBlades_dp_overload (bs : List Blade) (n : Nat) : (writeBlades bs n s).dp.overload = s.dp.overload := by unfold writeBlades; simp
@[simp] theorem writeBlades_dp_fault (bs : List Blade) (n : Nat) : (writeBlades bs n s).dp.fault = s.dp.fault := by unfold writeBlades; simp
@[simp] theorem writeBlades_dp_raced (bs : List Blade) (n : Nat) : (writeBlades bs n s).dp.raced = s.dp.raced := by unfold writeBlades; simp

@[simp] theorem writeDeck_tables (n : Nat) : (writeDeck n s).tables = s.tables := by unfold writeDeck; simp
@[simp] theorem writeDeck_dec (n : Nat) : (writeDeck n s).dec = s.dec := by unfold writeDeck; simp
@[simp] theorem writeDeck_act (n : Nat) : (writeDeck n s).act = s.act := by unfold writeDeck; simp
@[simp] theorem writeDeck_haz (n : Nat) : (writeDeck n s).haz = s.haz := by unfold writeDeck; simp
@[simp] theorem writeDeck_exe (n : Nat) : (writeDeck n s).exe = s.exe := by unfold writeDeck; simp
@[simp] theorem writeDeck_home (n : Nat) : (writeDeck n s).home = s.home := by unfold writeDeck; simp
@[simp] theorem writeDeck_gate (n : Nat) : (writeDeck n s).gate = s.gate := by unfold writeDeck; simp
@[simp] theorem writeDeck_port (n : Nat) : (writeDeck n s).port = s.port := by unfold writeDeck; simp
@[simp] theorem writeDeck_mgmt (n : Nat) : (writeDeck n s).mgmt = s.mgmt := by unfold writeDeck; simp
@[simp] theorem writeDeck_pins (n : Nat) : (writeDeck n s).pins = s.pins := by unfold writeDeck; simp
@[simp] theorem writeDeck_reports (n : Nat) : (writeDeck n s).reports = s.reports := by unfold writeDeck; simp
@[simp] theorem writeDeck_fresh (n : Nat) : (writeDeck n s).fresh = s.fresh := by unfold writeDeck; simp
@[simp] theorem writeDeck_pending (n : Nat) : (writeDeck n s).pending = s.pending := by unfold writeDeck; simp

@[simp] theorem writeDeck_dp_records (n : Nat) : (writeDeck n s).dp.records = s.dp.records := by unfold writeDeck; simp
@[simp] theorem writeDeck_dp_cycle (n : Nat) : (writeDeck n s).dp.cycle = s.dp.cycle := by unfold writeDeck; simp
@[simp] theorem writeDeck_dp_replyTimer (n : Nat) : (writeDeck n s).dp.replyTimer = s.dp.replyTimer := by unfold writeDeck; simp
@[simp] theorem writeDeck_dp_refreshTimer (n : Nat) : (writeDeck n s).dp.refreshTimer = s.dp.refreshTimer := by unfold writeDeck; simp
@[simp] theorem writeDeck_dp_stallLeft (n : Nat) : (writeDeck n s).dp.stallLeft = s.dp.stallLeft := by unfold writeDeck; simp
@[simp] theorem writeDeck_dp_stallRight (n : Nat) : (writeDeck n s).dp.stallRight = s.dp.stallRight := by unfold writeDeck; simp
@[simp] theorem writeDeck_dp_overload (n : Nat) : (writeDeck n s).dp.overload = s.dp.overload := by unfold writeDeck; simp
@[simp] theorem writeDeck_dp_fault (n : Nat) : (writeDeck n s).dp.fault = s.dp.fault := by unfold writeDeck; simp
@[simp] theorem writeDeck_dp_raced (n : Nat) : (writeDeck n s).dp.raced = s.dp.raced := by unfold writeDeck; simp

@[simp] theorem takeN_tables (n : Option Int) : (takeN n s).tables = s.tables := by unfold takeN; simp
@[simp] theorem takeN_dec (n : Option Int) : (takeN n s).dec = s.dec := by unfold takeN; simp
@[simp] theorem takeN_act (n : Option Int) : (takeN n s).act = s.act := by unfold takeN; simp
@[simp] theorem takeN_haz (n : Option Int) : (takeN n s).haz = s.haz := by unfold takeN; simp
@[simp] theorem takeN_exe (n : Option Int) : (takeN n s).exe = s.exe := by unfold takeN; simp
@[simp] theorem takeN_home (n : Option Int) : (takeN n s).home = s.home := by unfold takeN; simp
@[simp] theorem takeN_gate (n : Option Int) : (takeN n s).gate = s.gate := by unfold takeN; simp
@[simp] theorem takeN_port (n : Option Int) : (takeN n s).port = s.port := by unfold takeN; simp
@[simp] theorem takeN_mgmt (n : Option Int) : (takeN n s).mgmt = s.mgmt := by unfold takeN; simp
@[simp] theorem takeN_pins (n : Option Int) : (takeN n s).pins = s.pins := by unfold takeN; simp
@[simp] theorem takeN_reports (n : Option Int) : (takeN n s).reports = s.reports := by unfold takeN; simp
@[simp] theorem takeN_fresh (n : Option Int) : (takeN n s).fresh = s.fresh := by unfold takeN; simp
@[simp] theorem takeN_pending (n : Option Int) : (takeN n s).pending = s.pending := by unfold takeN; simp

@[simp] theorem takeN_dp_records (n : Option Int) : (takeN n s).dp.records = s.dp.records := by unfold takeN; simp
@[simp] theorem takeN_dp_cycle (n : Option Int) : (takeN n s).dp.cycle = s.dp.cycle := by unfold takeN; simp
@[simp] theorem takeN_dp_replyTimer (n : Option Int) : (takeN n s).dp.replyTimer = s.dp.replyTimer := by unfold takeN; simp
@[simp] theorem takeN_dp_refreshTimer (n : Option Int) : (takeN n s).dp.refreshTimer = s.dp.refreshTimer := by unfold takeN; simp
@[simp] theorem takeN_dp_stallLeft (n : Option Int) : (takeN n s).dp.stallLeft = s.dp.stallLeft := by unfold takeN; simp
@[simp] theorem takeN_dp_stallRight (n : Option Int) : (takeN n s).dp.stallRight = s.dp.stallRight := by unfold takeN; simp
@[simp] theorem takeN_dp_overload (n : Option Int) : (takeN n s).dp.overload = s.dp.overload := by unfold takeN; simp
@[simp] theorem takeN_dp_fault (n : Option Int) : (takeN n s).dp.fault = s.dp.fault := by unfold takeN; simp
@[simp] theorem takeN_dp_raced (n : Option Int) : (takeN n s).dp.raced = s.dp.raced := by unfold takeN; simp

@[simp] theorem takePercent_tables (b : Blade) (n : Nat) : (takePercent b n s).tables = s.tables := by unfold takePercent; simp
@[simp] theorem takePercent_dec (b : Blade) (n : Nat) : (takePercent b n s).dec = s.dec := by unfold takePercent; simp
@[simp] theorem takePercent_act (b : Blade) (n : Nat) : (takePercent b n s).act = s.act := by unfold takePercent; simp
@[simp] theorem takePercent_haz (b : Blade) (n : Nat) : (takePercent b n s).haz = s.haz := by unfold takePercent; simp
@[simp] theorem takePercent_exe (b : Blade) (n : Nat) : (takePercent b n s).exe = s.exe := by unfold takePercent; simp
@[simp] theorem takePercent_home (b : Blade) (n : Nat) : (takePercent b n s).home = s.home := by unfold takePercent; simp
@[simp] theorem takePercent_gate (b : Blade) (n : Nat) : (takePercent b n s).gate = s.gate := by unfold takePercent; simp
@[simp] theorem takePercent_port (b : Blade) (n : Nat) : (takePercent b n s).port = s.port := by unfold takePercent; simp
@[simp] theorem takePercent_mgmt (b : Blade) (n : Nat) : (takePercent b n s).mgmt = s.mgmt := by unfold takePercent; simp
@[simp] theorem takePercent_pins (b : Blade) (n : Nat) : (takePercent b n s).pins = s.pins := by unfold takePercent; simp
@[simp] theorem takePercent_reports (b : Blade) (n : Nat) : (takePercent b n s).reports = s.reports := by unfold takePercent; simp
@[simp] theorem takePercent_fresh (b : Blade) (n : Nat) : (takePercent b n s).fresh = s.fresh := by unfold takePercent; simp
@[simp] theorem takePercent_pending (b : Blade) (n : Nat) : (takePercent b n s).pending = s.pending := by unfold takePercent; simp

@[simp] theorem takePercent_dp_records (b : Blade) (n : Nat) : (takePercent b n s).dp.records = s.dp.records := by unfold takePercent; simp
@[simp] theorem takePercent_dp_cycle (b : Blade) (n : Nat) : (takePercent b n s).dp.cycle = s.dp.cycle := by unfold takePercent; simp
@[simp] theorem takePercent_dp_replyTimer (b : Blade) (n : Nat) : (takePercent b n s).dp.replyTimer = s.dp.replyTimer := by unfold takePercent; simp
@[simp] theorem takePercent_dp_refreshTimer (b : Blade) (n : Nat) : (takePercent b n s).dp.refreshTimer = s.dp.refreshTimer := by
  unfold takePercent; simp
@[simp] theorem takePercent_dp_stallLeft (b : Blade) (n : Nat) : (takePercent b n s).dp.stallLeft = s.dp.stallLeft := by unfold takePercent; simp
@[simp] theorem takePercent_dp_stallRight (b : Blade) (n : Nat) : (takePercent b n s).dp.stallRight = s.dp.stallRight := by unfold takePercent; simp
@[simp] theorem takePercent_dp_overload (b : Blade) (n : Nat) : (takePercent b n s).dp.overload = s.dp.overload := by unfold takePercent; simp
@[simp] theorem takePercent_dp_fault (b : Blade) (n : Nat) : (takePercent b n s).dp.fault = s.dp.fault := by unfold takePercent; simp
@[simp] theorem takePercent_dp_raced (b : Blade) (n : Nat) : (takePercent b n s).dp.raced = s.dp.raced := by unfold takePercent; simp

@[simp] theorem setBladeEnable_tables (b : Bool) : (setBladeEnable b s).tables = s.tables := by unfold setBladeEnable; split <;> simp
@[simp] theorem setBladeEnable_dec (b : Bool) : (setBladeEnable b s).dec = s.dec := by unfold setBladeEnable; split <;> simp
@[simp] theorem setBladeEnable_haz (b : Bool) : (setBladeEnable b s).haz = s.haz := by unfold setBladeEnable; split <;> simp
@[simp] theorem setBladeEnable_exe (b : Bool) : (setBladeEnable b s).exe = s.exe := by unfold setBladeEnable; split <;> simp
@[simp] theorem setBladeEnable_home (b : Bool) : (setBladeEnable b s).home = s.home := by unfold setBladeEnable; split <;> simp
@[simp] theorem setBladeEnable_gate (b : Bool) : (setBladeEnable b s).gate = s.gate := by unfold setBladeEnable; split <;> simp
@[simp] theorem setBladeEnable_port (b : Bool) : (setBladeEnable b s).port = s.port := by unfold setBladeEnable; split <;> simp
@[simp] theorem setBladeEnable_mgmt (b : Bool) : (setBladeEnable b s).mgmt = s.mgmt := by unfold setBladeEnable; split <;> simp
@[simp] theorem setBladeEnable_pins (b : Bool) : (setBladeEnable b s).pins = s.pins := by unfold setBladeEnable; split <;> simp
@[simp] theorem setBladeEnable_reports (b : Bool) : (setBladeEnable b s).reports = s.reports := by unfold setBladeEnable; split <;> simp
@[simp] theorem setBladeEnable_fresh (b : Bool) : (setBladeEnable b s).fresh = s.fresh := by unfold setBladeEnable; split <;> simp
@[simp] theorem setBladeEnable_pending (b : Bool) : (setBladeEnable b s).pending = s.pending := by unfold setBladeEnable; split <;> simp

@[simp] theorem setBladeEnable_act_stack (b : Bool) : (setBladeEnable b s).act.stack = s.act.stack := by unfold setBladeEnable; split <;> simp
@[simp] theorem setBladeEnable_act_epoch (b : Bool) : (setBladeEnable b s).act.epoch = s.act.epoch := by unfold setBladeEnable; split <;> simp
@[simp] theorem setBladeEnable_act_shadow (b : Bool) : (setBladeEnable b s).act.shadow = s.act.shadow := by unfold setBladeEnable; split <;> simp
@[simp] theorem setBladeEnable_act_pendingReturn (b : Bool) : (setBladeEnable b s).act.pendingReturn = s.act.pendingReturn := by
  unfold setBladeEnable; split <;> simp

@[simp] theorem setBladeEnable_dp_records (b : Bool) : (setBladeEnable b s).dp.records = s.dp.records := by unfold setBladeEnable; split <;> simp
@[simp] theorem setBladeEnable_dp_cycle (b : Bool) : (setBladeEnable b s).dp.cycle = s.dp.cycle := by unfold setBladeEnable; split <;> simp
@[simp] theorem setBladeEnable_dp_replyTimer (b : Bool) : (setBladeEnable b s).dp.replyTimer = s.dp.replyTimer := by
  unfold setBladeEnable; split <;> simp
@[simp] theorem setBladeEnable_dp_refreshTimer (b : Bool) : (setBladeEnable b s).dp.refreshTimer = s.dp.refreshTimer := by
  unfold setBladeEnable; split <;> simp
@[simp] theorem setBladeEnable_dp_stallLeft (b : Bool) : (setBladeEnable b s).dp.stallLeft = s.dp.stallLeft := by
  unfold setBladeEnable; split <;> simp
@[simp] theorem setBladeEnable_dp_stallRight (b : Bool) : (setBladeEnable b s).dp.stallRight = s.dp.stallRight := by
  unfold setBladeEnable; split <;> simp
@[simp] theorem setBladeEnable_dp_overload (b : Bool) : (setBladeEnable b s).dp.overload = s.dp.overload := by unfold setBladeEnable; split <;> simp
@[simp] theorem setBladeEnable_dp_fault (b : Bool) : (setBladeEnable b s).dp.fault = s.dp.fault := by unfold setBladeEnable; split <;> simp
@[simp] theorem setBladeEnable_dp_raced (b : Bool) : (setBladeEnable b s).dp.raced = s.dp.raced := by unfold setBladeEnable; split <;> simp

@[simp] theorem setBladeEnable_env_n (b : Bool) : (setBladeEnable b s).env.n = s.env.n := by unfold setBladeEnable; split <;> simp
@[simp] theorem setBladeEnable_env_pitch (b : Bool) : (setBladeEnable b s).env.pitch = s.env.pitch := by unfold setBladeEnable; split <;> simp
@[simp] theorem setBladeEnable_env_roll (b : Bool) : (setBladeEnable b s).env.roll = s.env.roll := by unfold setBladeEnable; split <;> simp
@[simp] theorem setBladeEnable_env_percents (b : Bool) : (setBladeEnable b s).env.percents = s.env.percents := by
  unfold setBladeEnable; split <;> simp
@[simp] theorem setBladeEnable_env_req (b : Bool) : (setBladeEnable b s).env.req = s.env.req := by unfold setBladeEnable; split <;> simp

@[simp] theorem setBladeEnable_act_bladeEnable (b : Bool) : (setBladeEnable b s).act.bladeEnable = b := by
  unfold setBladeEnable; split <;> simp_all

/-! ### Source moves -/

@[simp] theorem moveSource_tables (i : Fin 16) (st : SrcState) (t : Option Nat) : (moveSource i st t s).tables = s.tables := by
  unfold moveSource; simp
@[simp] theorem moveSource_dec (i : Fin 16) (st : SrcState) (t : Option Nat) : (moveSource i st t s).dec = s.dec := by unfold moveSource; simp
@[simp] theorem moveSource_act (i : Fin 16) (st : SrcState) (t : Option Nat) : (moveSource i st t s).act = s.act := by unfold moveSource; simp
@[simp] theorem moveSource_exe (i : Fin 16) (st : SrcState) (t : Option Nat) : (moveSource i st t s).exe = s.exe := by unfold moveSource; simp
@[simp] theorem moveSource_home (i : Fin 16) (st : SrcState) (t : Option Nat) : (moveSource i st t s).home = s.home := by unfold moveSource; simp
@[simp] theorem moveSource_gate (i : Fin 16) (st : SrcState) (t : Option Nat) : (moveSource i st t s).gate = s.gate := by unfold moveSource; simp
@[simp] theorem moveSource_port (i : Fin 16) (st : SrcState) (t : Option Nat) : (moveSource i st t s).port = s.port := by unfold moveSource; simp
@[simp] theorem moveSource_mgmt (i : Fin 16) (st : SrcState) (t : Option Nat) : (moveSource i st t s).mgmt = s.mgmt := by unfold moveSource; simp
@[simp] theorem moveSource_pins (i : Fin 16) (st : SrcState) (t : Option Nat) : (moveSource i st t s).pins = s.pins := by unfold moveSource; simp
@[simp] theorem moveSource_reports (i : Fin 16) (st : SrcState) (t : Option Nat) : (moveSource i st t s).reports = s.reports := by
  unfold moveSource; simp
@[simp] theorem moveSource_fresh (i : Fin 16) (st : SrcState) (t : Option Nat) : (moveSource i st t s).fresh = s.fresh := by unfold moveSource; simp
@[simp] theorem moveSource_pending (i : Fin 16) (st : SrcState) (t : Option Nat) : (moveSource i st t s).pending = s.pending := by
  unfold moveSource; simp

@[simp] theorem moveSource_dp_records (i : Fin 16) (st : SrcState) (t : Option Nat) : (moveSource i st t s).dp.records = s.dp.records := by
  unfold moveSource; simp
@[simp] theorem moveSource_dp_cycle (i : Fin 16) (st : SrcState) (t : Option Nat) : (moveSource i st t s).dp.cycle = s.dp.cycle := by
  unfold moveSource; simp
@[simp] theorem moveSource_dp_replyTimer (i : Fin 16) (st : SrcState) (t : Option Nat) : (moveSource i st t s).dp.replyTimer = s.dp.replyTimer := by
  unfold moveSource; simp
@[simp] theorem moveSource_dp_refreshTimer (i : Fin 16) (st : SrcState) (t : Option Nat) : (moveSource i st t s).dp.refreshTimer = s.dp.refreshTimer := by
  unfold moveSource; simp
@[simp] theorem moveSource_dp_stallLeft (i : Fin 16) (st : SrcState) (t : Option Nat) : (moveSource i st t s).dp.stallLeft = s.dp.stallLeft := by
  unfold moveSource; simp
@[simp] theorem moveSource_dp_stallRight (i : Fin 16) (st : SrcState) (t : Option Nat) : (moveSource i st t s).dp.stallRight = s.dp.stallRight := by
  unfold moveSource; simp
@[simp] theorem moveSource_dp_overload (i : Fin 16) (st : SrcState) (t : Option Nat) : (moveSource i st t s).dp.overload = s.dp.overload := by
  unfold moveSource; simp
@[simp] theorem moveSource_dp_fault (i : Fin 16) (st : SrcState) (t : Option Nat) : (moveSource i st t s).dp.fault = s.dp.fault := by
  unfold moveSource; simp
@[simp] theorem moveSource_dp_raced (i : Fin 16) (st : SrcState) (t : Option Nat) : (moveSource i st t s).dp.raced = s.dp.raced := by
  unfold moveSource; simp

@[simp] theorem moveSource_env_n (i : Fin 16) (st : SrcState) (t : Option Nat) : (moveSource i st t s).env.n = s.env.n := by unfold moveSource; simp
@[simp] theorem moveSource_env_pitch (i : Fin 16) (st : SrcState) (t : Option Nat) : (moveSource i st t s).env.pitch = s.env.pitch := by
  unfold moveSource; simp
@[simp] theorem moveSource_env_roll (i : Fin 16) (st : SrcState) (t : Option Nat) : (moveSource i st t s).env.roll = s.env.roll := by
  unfold moveSource; simp
@[simp] theorem moveSource_env_percents (i : Fin 16) (st : SrcState) (t : Option Nat) : (moveSource i st t s).env.percents = s.env.percents := by
  unfold moveSource; simp
@[simp] theorem moveSource_env_req (i : Fin 16) (st : SrcState) (t : Option Nat) : (moveSource i st t s).env.req = s.env.req := by
  unfold moveSource; simp

@[simp] theorem moveSource_haz_nodes (i : Fin 16) (st : SrcState) (t : Option Nat) : (moveSource i st t s).haz.nodes = s.haz.nodes := by
  unfold moveSource; simp
@[simp] theorem moveSource_haz_wireDelay (i : Fin 16) (st : SrcState) (t : Option Nat) : (moveSource i st t s).haz.wireDelay = s.haz.wireDelay := by
  unfold moveSource; simp
@[simp] theorem moveSource_haz_kept (i : Fin 16) (st : SrcState) (t : Option Nat) : (moveSource i st t s).haz.kept = s.haz.kept := by
  unfold moveSource; simp

@[simp] theorem hazardMove_tables (i : Fin 16) (v : Bool) : ((hazardMove i v s).1).tables = s.tables := by
  unfold hazardMove; dsimp only; split; · rfl
  split; · rfl
  split; · simp
  · split <;> simp
  · simp
  all_goals rfl
@[simp] theorem hazardMove_dec (i : Fin 16) (v : Bool) : ((hazardMove i v s).1).dec = s.dec := by
  unfold hazardMove; dsimp only; split; · rfl
  split; · rfl
  split; · simp
  · split <;> simp
  · simp
  all_goals rfl
@[simp] theorem hazardMove_act (i : Fin 16) (v : Bool) : ((hazardMove i v s).1).act = s.act := by
  unfold hazardMove; dsimp only; split; · rfl
  split; · rfl
  split; · simp
  · split <;> simp
  · simp
  all_goals rfl
@[simp] theorem hazardMove_exe (i : Fin 16) (v : Bool) : ((hazardMove i v s).1).exe = s.exe := by
  unfold hazardMove; dsimp only; split; · rfl
  split; · rfl
  split; · simp
  · split <;> simp
  · simp
  all_goals rfl
@[simp] theorem hazardMove_home (i : Fin 16) (v : Bool) : ((hazardMove i v s).1).home = s.home := by
  unfold hazardMove; dsimp only; split; · rfl
  split; · rfl
  split; · simp
  · split <;> simp
  · simp
  all_goals rfl
@[simp] theorem hazardMove_gate (i : Fin 16) (v : Bool) : ((hazardMove i v s).1).gate = s.gate := by
  unfold hazardMove; dsimp only; split; · rfl
  split; · rfl
  split; · simp
  · split <;> simp
  · simp
  all_goals rfl
@[simp] theorem hazardMove_port (i : Fin 16) (v : Bool) : ((hazardMove i v s).1).port = s.port := by
  unfold hazardMove; dsimp only; split; · rfl
  split; · rfl
  split; · simp
  · split <;> simp
  · simp
  all_goals rfl
@[simp] theorem hazardMove_mgmt (i : Fin 16) (v : Bool) : ((hazardMove i v s).1).mgmt = s.mgmt := by
  unfold hazardMove; dsimp only; split; · rfl
  split; · rfl
  split; · simp
  · split <;> simp
  · simp
  all_goals rfl
@[simp] theorem hazardMove_pins (i : Fin 16) (v : Bool) : ((hazardMove i v s).1).pins = s.pins := by
  unfold hazardMove; dsimp only; split; · rfl
  split; · rfl
  split; · simp
  · split <;> simp
  · simp
  all_goals rfl
@[simp] theorem hazardMove_reports (i : Fin 16) (v : Bool) : ((hazardMove i v s).1).reports = s.reports := by
  unfold hazardMove; dsimp only; split; · rfl
  split; · rfl
  split; · simp
  · split <;> simp
  · simp
  all_goals rfl
@[simp] theorem hazardMove_fresh (i : Fin 16) (v : Bool) : ((hazardMove i v s).1).fresh = s.fresh := by
  unfold hazardMove; dsimp only; split; · rfl
  split; · rfl
  split; · simp
  · split <;> simp
  · simp
  all_goals rfl
@[simp] theorem hazardMove_pending (i : Fin 16) (v : Bool) : ((hazardMove i v s).1).pending = s.pending := by
  unfold hazardMove; dsimp only; split; · rfl
  split; · rfl
  split; · simp
  · split <;> simp
  · simp
  all_goals rfl

@[simp] theorem hazardMove_dp_records (i : Fin 16) (v : Bool) : ((hazardMove i v s).1).dp.records = s.dp.records := by
  unfold hazardMove; dsimp only; split; · rfl
  split; · rfl
  split; · simp
  · split <;> simp
  · simp
  all_goals rfl
@[simp] theorem hazardMove_dp_cycle (i : Fin 16) (v : Bool) : ((hazardMove i v s).1).dp.cycle = s.dp.cycle := by
  unfold hazardMove; dsimp only; split; · rfl
  split; · rfl
  split; · simp
  · split <;> simp
  · simp
  all_goals rfl
@[simp] theorem hazardMove_dp_replyTimer (i : Fin 16) (v : Bool) : ((hazardMove i v s).1).dp.replyTimer = s.dp.replyTimer := by
  unfold hazardMove; dsimp only; split; · rfl
  split; · rfl
  split; · simp
  · split <;> simp
  · simp
  all_goals rfl
@[simp] theorem hazardMove_dp_refreshTimer (i : Fin 16) (v : Bool) : ((hazardMove i v s).1).dp.refreshTimer = s.dp.refreshTimer := by
  unfold hazardMove; dsimp only; split; · rfl
  split; · rfl
  split; · simp
  · split <;> simp
  · simp
  all_goals rfl
@[simp] theorem hazardMove_dp_stallLeft (i : Fin 16) (v : Bool) : ((hazardMove i v s).1).dp.stallLeft = s.dp.stallLeft := by
  unfold hazardMove; dsimp only; split; · rfl
  split; · rfl
  split; · simp
  · split <;> simp
  · simp
  all_goals rfl
@[simp] theorem hazardMove_dp_stallRight (i : Fin 16) (v : Bool) : ((hazardMove i v s).1).dp.stallRight = s.dp.stallRight := by
  unfold hazardMove; dsimp only; split; · rfl
  split; · rfl
  split; · simp
  · split <;> simp
  · simp
  all_goals rfl
@[simp] theorem hazardMove_dp_overload (i : Fin 16) (v : Bool) : ((hazardMove i v s).1).dp.overload = s.dp.overload := by
  unfold hazardMove; dsimp only; split; · rfl
  split; · rfl
  split; · simp
  · split <;> simp
  · simp
  all_goals rfl
@[simp] theorem hazardMove_dp_fault (i : Fin 16) (v : Bool) : ((hazardMove i v s).1).dp.fault = s.dp.fault := by
  unfold hazardMove; dsimp only; split; · rfl
  split; · rfl
  split; · simp
  · split <;> simp
  · simp
  all_goals rfl
@[simp] theorem hazardMove_dp_raced (i : Fin 16) (v : Bool) : ((hazardMove i v s).1).dp.raced = s.dp.raced := by
  unfold hazardMove; dsimp only; split; · rfl
  split; · rfl
  split; · simp
  · split <;> simp
  · simp
  all_goals rfl

@[simp] theorem hazardMove_env_n (i : Fin 16) (v : Bool) : ((hazardMove i v s).1).env.n = s.env.n := by
  unfold hazardMove; dsimp only; split; · rfl
  split; · rfl
  split; · simp
  · split <;> simp
  · simp
  all_goals rfl
@[simp] theorem hazardMove_env_pitch (i : Fin 16) (v : Bool) : ((hazardMove i v s).1).env.pitch = s.env.pitch := by
  unfold hazardMove; dsimp only; split; · rfl
  split; · rfl
  split; · simp
  · split <;> simp
  · simp
  all_goals rfl
@[simp] theorem hazardMove_env_roll (i : Fin 16) (v : Bool) : ((hazardMove i v s).1).env.roll = s.env.roll := by
  unfold hazardMove; dsimp only; split; · rfl
  split; · rfl
  split; · simp
  · split <;> simp
  · simp
  all_goals rfl
@[simp] theorem hazardMove_env_percents (i : Fin 16) (v : Bool) : ((hazardMove i v s).1).env.percents = s.env.percents := by
  unfold hazardMove; dsimp only; split; · rfl
  split; · rfl
  split; · simp
  · split <;> simp
  · simp
  all_goals rfl
@[simp] theorem hazardMove_env_req (i : Fin 16) (v : Bool) : ((hazardMove i v s).1).env.req = s.env.req := by
  unfold hazardMove; dsimp only; split; · rfl
  split; · rfl
  split; · simp
  · split <;> simp
  · simp
  all_goals rfl

@[simp] theorem hazardMove_haz_nodes (i : Fin 16) (v : Bool) : ((hazardMove i v s).1).haz.nodes = s.haz.nodes := by
  unfold hazardMove; dsimp only; split; · rfl
  split; · rfl
  split; · simp
  · split <;> simp
  · simp
  all_goals rfl
@[simp] theorem hazardMove_haz_wireDelay (i : Fin 16) (v : Bool) : ((hazardMove i v s).1).haz.wireDelay = s.haz.wireDelay := by
  unfold hazardMove; dsimp only; split; · rfl
  split; · rfl
  split; · simp
  · split <;> simp
  · simp
  all_goals rfl
@[simp] theorem hazardMove_haz_kept (i : Fin 16) (v : Bool) : ((hazardMove i v s).1).haz.kept = s.haz.kept := by
  unfold hazardMove; dsimp only; split; · rfl
  split; · rfl
  split; · simp
  · split <;> simp
  · simp
  all_goals rfl

/-- A condition that becomes false never fires a response (R77). -/
@[simp] theorem hazardMove_false (i : Fin 16) : (hazardMove i false s).2 = false := by
  unfold hazardMove; dsimp only; split; · rfl
  split; · rfl
  split <;> first | rfl | contradiction

theorem setCondition_false (i : Fin 16) : setCondition i false s = (hazardMove i false s).1 := by
  have h := hazardMove_false s i
  unfold setCondition
  revert h
  cases hazardMove i false s with
  | mk a b => intro h; cases h; rfl

/-! ### The records of the sources -/

@[simp] theorem markNotice_haz_pending (i : Fin 20) :
    (markNotice i s).haz.pending = s.haz.pending ||| BitVec.twoPow 20 i.val := rfl

@[simp] theorem setSource_haz_sources (i : Fin 16) (r : SrcRec) :
    (setSource i r s).haz.sources = s.haz.sources.set i r := rfl

@[simp] theorem moveSource_haz_sources (i : Fin 16) (st : SrcState) (t : Option Nat) :
    (moveSource i st t s).haz.sources = s.haz.sources.set i { s.haz.sources[i] with
      state := st, hold := t, raisedSince := s.haz.sources[i].raisedSince || st = .raised } := by
  unfold moveSource; simp

@[simp] theorem moveSource_haz_pending (i : Fin 16) (st : SrcState) (t : Option Nat) :
    (moveSource i st t s).haz.pending = s.haz.pending ||| BitVec.twoPow 20 i.val := by
  unfold moveSource; simp [sourceNotice]

/-- A condition change of one source leaves the records of the others. -/
theorem hazardMove_other (i j : Fin 16) (v : Bool) (h : j ≠ i) :
    (hazardMove i v s).1.haz.sources[j] = s.haz.sources[j] := by
  have k : i.val ≠ j.val := fun e => h (Fin.ext e.symm)
  unfold hazardMove; dsimp only; split; · rfl
  split; · simp [k]
  split
  · simp [k]
  · split <;> simp [k]
  all_goals simp [k]

/-- After a condition change the source has that condition. -/
theorem hazardMove_cond (i : Fin 16) (v : Bool) : (hazardMove i v s).1.haz.sources[i].cond = v := by
  unfold hazardMove; dsimp only; split; · assumption
  split; · simp
  split
  · simp
  · split <;> simp
  all_goals simp

/-! ### Acceptance on CP, refusals, replies, the token taken at the end -/

@[simp] theorem acceptCp_tables : (acceptCp s).tables = s.tables := by unfold acceptCp; simp [setCondition_false]
@[simp] theorem acceptCp_dec : (acceptCp s).dec = s.dec := by unfold acceptCp; simp [setCondition_false]
@[simp] theorem acceptCp_act : (acceptCp s).act = s.act := by unfold acceptCp; simp [setCondition_false]
@[simp] theorem acceptCp_exe : (acceptCp s).exe = s.exe := by unfold acceptCp; simp [setCondition_false]
@[simp] theorem acceptCp_home : (acceptCp s).home = s.home := by unfold acceptCp; simp [setCondition_false]
@[simp] theorem acceptCp_gate : (acceptCp s).gate = s.gate := by unfold acceptCp; simp [setCondition_false]
@[simp] theorem acceptCp_mgmt : (acceptCp s).mgmt = s.mgmt := by unfold acceptCp; simp [setCondition_false]
@[simp] theorem acceptCp_pins : (acceptCp s).pins = s.pins := by unfold acceptCp; simp [setCondition_false]
@[simp] theorem acceptCp_reports : (acceptCp s).reports = s.reports := by unfold acceptCp; simp [setCondition_false]
@[simp] theorem acceptCp_fresh : (acceptCp s).fresh = s.fresh := by unfold acceptCp; simp [setCondition_false]
@[simp] theorem acceptCp_pending : (acceptCp s).pending = s.pending := by unfold acceptCp; simp [setCondition_false]

@[simp] theorem acceptCp_dp_records : (acceptCp s).dp.records = s.dp.records := by unfold acceptCp; simp [setCondition_false]
@[simp] theorem acceptCp_dp_cycle : (acceptCp s).dp.cycle = s.dp.cycle := by unfold acceptCp; simp [setCondition_false]
@[simp] theorem acceptCp_dp_replyTimer : (acceptCp s).dp.replyTimer = s.dp.replyTimer := by unfold acceptCp; simp [setCondition_false]
@[simp] theorem acceptCp_dp_refreshTimer : (acceptCp s).dp.refreshTimer = s.dp.refreshTimer := by unfold acceptCp; simp [setCondition_false]
@[simp] theorem acceptCp_dp_stallLeft : (acceptCp s).dp.stallLeft = s.dp.stallLeft := by unfold acceptCp; simp [setCondition_false]
@[simp] theorem acceptCp_dp_stallRight : (acceptCp s).dp.stallRight = s.dp.stallRight := by unfold acceptCp; simp [setCondition_false]
@[simp] theorem acceptCp_dp_overload : (acceptCp s).dp.overload = s.dp.overload := by unfold acceptCp; simp [setCondition_false]
@[simp] theorem acceptCp_dp_fault : (acceptCp s).dp.fault = s.dp.fault := by unfold acceptCp; simp [setCondition_false]
@[simp] theorem acceptCp_dp_raced : (acceptCp s).dp.raced = s.dp.raced := by unfold acceptCp; simp [setCondition_false]

@[simp] theorem acceptCp_env_n : (acceptCp s).env.n = s.env.n := by unfold acceptCp; simp [setCondition_false]
@[simp] theorem acceptCp_env_pitch : (acceptCp s).env.pitch = s.env.pitch := by unfold acceptCp; simp [setCondition_false]
@[simp] theorem acceptCp_env_roll : (acceptCp s).env.roll = s.env.roll := by unfold acceptCp; simp [setCondition_false]
@[simp] theorem acceptCp_env_percents : (acceptCp s).env.percents = s.env.percents := by unfold acceptCp; simp [setCondition_false]
@[simp] theorem acceptCp_env_req : (acceptCp s).env.req = s.env.req := by unfold acceptCp; simp [setCondition_false]

@[simp] theorem acceptCp_haz_nodes : (acceptCp s).haz.nodes = s.haz.nodes := by unfold acceptCp; simp [setCondition_false]
@[simp] theorem acceptCp_haz_wireDelay : (acceptCp s).haz.wireDelay = s.haz.wireDelay := by unfold acceptCp; simp [setCondition_false]
@[simp] theorem acceptCp_haz_kept : (acceptCp s).haz.kept = s.haz.kept := by unfold acceptCp; simp [setCondition_false]

@[simp] theorem acceptCp_port :
    (acceptCp s).port = { s.port with liveness := some s.tables.timing.liveness } := by
  unfold acceptCp; simp [setCondition_false]

/-- The acceptance of a CP frame touches LINK-SILENT's record alone. -/
theorem acceptCp_source (i : Fin 16) (h : i ≠ srcLinkSilent) : (acceptCp s).haz.sources[i] = s.haz.sources[i] := by
  unfold acceptCp; rw [setCondition_false, hazardMove_other _ _ _ _ h]; rfl

@[simp] theorem acceptCp_top : (acceptCp s).top = s.top := by simp [State.top]

@[simp] theorem acceptCp_placesUsed : placesUsed (acceptCp s) = placesUsed s := by simp [placesUsed]

@[simp] theorem acceptCp_isReady : (acceptCp s).isReady = s.isReady := by simp [State.isReady, State.live]

@[simp] theorem enterRefusal_tables (c : Code) (n : Nat) (k : Byte) (d : Nat) : (enterRefusal c n k d s).tables = s.tables := by
  unfold enterRefusal; split <;> simp
@[simp] theorem enterRefusal_dec (c : Code) (n : Nat) (k : Byte) (d : Nat) : (enterRefusal c n k d s).dec = s.dec := by
  unfold enterRefusal; split <;> simp
@[simp] theorem enterRefusal_env (c : Code) (n : Nat) (k : Byte) (d : Nat) : (enterRefusal c n k d s).env = s.env := by
  unfold enterRefusal; split <;> simp
@[simp] theorem enterRefusal_act (c : Code) (n : Nat) (k : Byte) (d : Nat) : (enterRefusal c n k d s).act = s.act := by
  unfold enterRefusal; split <;> simp
@[simp] theorem enterRefusal_exe (c : Code) (n : Nat) (k : Byte) (d : Nat) : (enterRefusal c n k d s).exe = s.exe := by
  unfold enterRefusal; split <;> simp
@[simp] theorem enterRefusal_home (c : Code) (n : Nat) (k : Byte) (d : Nat) : (enterRefusal c n k d s).home = s.home := by
  unfold enterRefusal; split <;> simp
@[simp] theorem enterRefusal_dp (c : Code) (n : Nat) (k : Byte) (d : Nat) : (enterRefusal c n k d s).dp = s.dp := by
  unfold enterRefusal; split <;> simp
@[simp] theorem enterRefusal_port (c : Code) (n : Nat) (k : Byte) (d : Nat) : (enterRefusal c n k d s).port = s.port := by
  unfold enterRefusal; split <;> simp
@[simp] theorem enterRefusal_mgmt (c : Code) (n : Nat) (k : Byte) (d : Nat) : (enterRefusal c n k d s).mgmt = s.mgmt := by
  unfold enterRefusal; split <;> simp
@[simp] theorem enterRefusal_pins (c : Code) (n : Nat) (k : Byte) (d : Nat) : (enterRefusal c n k d s).pins = s.pins := by
  unfold enterRefusal; split <;> simp
@[simp] theorem enterRefusal_reports (c : Code) (n : Nat) (k : Byte) (d : Nat) : (enterRefusal c n k d s).reports = s.reports := by
  unfold enterRefusal; split <;> simp
@[simp] theorem enterRefusal_fresh (c : Code) (n : Nat) (k : Byte) (d : Nat) : (enterRefusal c n k d s).fresh = s.fresh := by
  unfold enterRefusal; split <;> simp
@[simp] theorem enterRefusal_pending (c : Code) (n : Nat) (k : Byte) (d : Nat) : (enterRefusal c n k d s).pending = s.pending := by
  unfold enterRefusal; split <;> simp

@[simp] theorem enterRefusal_haz_sources (c : Code) (n : Nat) (k : Byte) (d : Nat) : (enterRefusal c n k d s).haz.sources = s.haz.sources := by
  unfold enterRefusal; split <;> simp
@[simp] theorem enterRefusal_haz_nodes (c : Code) (n : Nat) (k : Byte) (d : Nat) : (enterRefusal c n k d s).haz.nodes = s.haz.nodes := by
  unfold enterRefusal; split <;> simp
@[simp] theorem enterRefusal_haz_wireDelay (c : Code) (n : Nat) (k : Byte) (d : Nat) : (enterRefusal c n k d s).haz.wireDelay = s.haz.wireDelay := by
  unfold enterRefusal; split <;> simp
@[simp] theorem enterRefusal_haz_kept (c : Code) (n : Nat) (k : Byte) (d : Nat) : (enterRefusal c n k d s).haz.kept = s.haz.kept := by
  unfold enterRefusal; split <;> simp

@[simp] theorem enterRefusal_gate_deferred (c : Code) (n : Nat) (k : Byte) (d : Nat) : (enterRefusal c n k d s).gate.deferred = s.gate.deferred := by
  unfold enterRefusal; split <;> simp

@[simp] theorem enqueueReply_tables (r t : Byte) (c : Code) (o : Nat) (d : List Byte) : (enqueueReply r t c o d s).tables = s.tables := rfl
@[simp] theorem enqueueReply_dec (r t : Byte) (c : Code) (o : Nat) (d : List Byte) : (enqueueReply r t c o d s).dec = s.dec := rfl
@[simp] theorem enqueueReply_env (r t : Byte) (c : Code) (o : Nat) (d : List Byte) : (enqueueReply r t c o d s).env = s.env := rfl
@[simp] theorem enqueueReply_act (r t : Byte) (c : Code) (o : Nat) (d : List Byte) : (enqueueReply r t c o d s).act = s.act := rfl
@[simp] theorem enqueueReply_haz (r t : Byte) (c : Code) (o : Nat) (d : List Byte) : (enqueueReply r t c o d s).haz = s.haz := rfl
@[simp] theorem enqueueReply_exe (r t : Byte) (c : Code) (o : Nat) (d : List Byte) : (enqueueReply r t c o d s).exe = s.exe := rfl
@[simp] theorem enqueueReply_home (r t : Byte) (c : Code) (o : Nat) (d : List Byte) : (enqueueReply r t c o d s).home = s.home := rfl
@[simp] theorem enqueueReply_gate (r t : Byte) (c : Code) (o : Nat) (d : List Byte) : (enqueueReply r t c o d s).gate = s.gate := rfl
@[simp] theorem enqueueReply_dp (r t : Byte) (c : Code) (o : Nat) (d : List Byte) : (enqueueReply r t c o d s).dp = s.dp := rfl
@[simp] theorem enqueueReply_mgmt (r t : Byte) (c : Code) (o : Nat) (d : List Byte) : (enqueueReply r t c o d s).mgmt = s.mgmt := rfl
@[simp] theorem enqueueReply_pins (r t : Byte) (c : Code) (o : Nat) (d : List Byte) : (enqueueReply r t c o d s).pins = s.pins := rfl
@[simp] theorem enqueueReply_reports (r t : Byte) (c : Code) (o : Nat) (d : List Byte) : (enqueueReply r t c o d s).reports = s.reports := rfl
@[simp] theorem enqueueReply_fresh (r t : Byte) (c : Code) (o : Nat) (d : List Byte) : (enqueueReply r t c o d s).fresh = s.fresh := rfl
@[simp] theorem enqueueReply_pending (r t : Byte) (c : Code) (o : Nat) (d : List Byte) : (enqueueReply r t c o d s).pending = s.pending := rfl

@[simp] theorem takeToken_tables : (takeToken s).tables = s.tables := by unfold takeToken; split <;> first | rfl | (split <;> rfl)
@[simp] theorem takeToken_dec : (takeToken s).dec = s.dec := by unfold takeToken; split <;> first | rfl | (split <;> rfl)
@[simp] theorem takeToken_env : (takeToken s).env = s.env := by unfold takeToken; split <;> first | rfl | (split <;> rfl)
@[simp] theorem takeToken_act : (takeToken s).act = s.act := by unfold takeToken; split <;> first | rfl | (split <;> rfl)
@[simp] theorem takeToken_haz : (takeToken s).haz = s.haz := by unfold takeToken; split <;> first | rfl | (split <;> rfl)
@[simp] theorem takeToken_exe : (takeToken s).exe = s.exe := by unfold takeToken; split <;> first | rfl | (split <;> rfl)
@[simp] theorem takeToken_home : (takeToken s).home = s.home := by unfold takeToken; split <;> first | rfl | (split <;> rfl)
@[simp] theorem takeToken_gate : (takeToken s).gate = s.gate := by unfold takeToken; split <;> first | rfl | (split <;> rfl)
@[simp] theorem takeToken_port : (takeToken s).port = s.port := by unfold takeToken; split <;> first | rfl | (split <;> rfl)
@[simp] theorem takeToken_mgmt : (takeToken s).mgmt = s.mgmt := by unfold takeToken; split <;> first | rfl | (split <;> rfl)
@[simp] theorem takeToken_pins : (takeToken s).pins = s.pins := by unfold takeToken; split <;> first | rfl | (split <;> rfl)
@[simp] theorem takeToken_reports : (takeToken s).reports = s.reports := by unfold takeToken; split <;> first | rfl | (split <;> rfl)
@[simp] theorem takeToken_fresh : (takeToken s).fresh = s.fresh := by unfold takeToken; split <;> first | rfl | (split <;> rfl)
@[simp] theorem takeToken_pending : (takeToken s).pending = s.pending := by unfold takeToken; split <;> first | rfl | (split <;> rfl)

@[simp] theorem takeToken_dp_records : (takeToken s).dp.records = s.dp.records := by unfold takeToken; split <;> first | rfl | (split <;> rfl)
@[simp] theorem takeToken_dp_replyTimer : (takeToken s).dp.replyTimer = s.dp.replyTimer := by
  unfold takeToken; split <;> first | rfl | (split <;> rfl)
@[simp] theorem takeToken_dp_refreshTimer : (takeToken s).dp.refreshTimer = s.dp.refreshTimer := by
  unfold takeToken; split <;> first | rfl | (split <;> rfl)
@[simp] theorem takeToken_dp_stallLeft : (takeToken s).dp.stallLeft = s.dp.stallLeft := by unfold takeToken; split <;> first | rfl | (split <;> rfl)
@[simp] theorem takeToken_dp_stallRight : (takeToken s).dp.stallRight = s.dp.stallRight := by
  unfold takeToken; split <;> first | rfl | (split <;> rfl)
@[simp] theorem takeToken_dp_overload : (takeToken s).dp.overload = s.dp.overload := by unfold takeToken; split <;> first | rfl | (split <;> rfl)
@[simp] theorem takeToken_dp_fault : (takeToken s).dp.fault = s.dp.fault := by unfold takeToken; split <;> first | rfl | (split <;> rfl)

/-- A READY device's event clears the mark of an expiry that may have met its reply (log entry 41). -/
theorem takeToken_dp_raced (h : s.isReady = true) : (takeToken s).dp.raced = none := by
  unfold takeToken; rw [if_neg (by simp [h])]; split <;> rfl

@[simp] theorem markRaced_tables (a : Option Byte) : (markRaced a s).tables = s.tables := by cases a <;> rfl
@[simp] theorem markRaced_dec (a : Option Byte) : (markRaced a s).dec = s.dec := by cases a <;> rfl
@[simp] theorem markRaced_env (a : Option Byte) : (markRaced a s).env = s.env := by cases a <;> rfl
@[simp] theorem markRaced_act (a : Option Byte) : (markRaced a s).act = s.act := by cases a <;> rfl
@[simp] theorem markRaced_haz (a : Option Byte) : (markRaced a s).haz = s.haz := by cases a <;> rfl
@[simp] theorem markRaced_exe (a : Option Byte) : (markRaced a s).exe = s.exe := by cases a <;> rfl
@[simp] theorem markRaced_home (a : Option Byte) : (markRaced a s).home = s.home := by cases a <;> rfl
@[simp] theorem markRaced_gate (a : Option Byte) : (markRaced a s).gate = s.gate := by cases a <;> rfl
@[simp] theorem markRaced_port (a : Option Byte) : (markRaced a s).port = s.port := by cases a <;> rfl
@[simp] theorem markRaced_mgmt (a : Option Byte) : (markRaced a s).mgmt = s.mgmt := by cases a <;> rfl
@[simp] theorem markRaced_pins (a : Option Byte) : (markRaced a s).pins = s.pins := by cases a <;> rfl
@[simp] theorem markRaced_reports (a : Option Byte) : (markRaced a s).reports = s.reports := by cases a <;> rfl
@[simp] theorem markRaced_fresh (a : Option Byte) : (markRaced a s).fresh = s.fresh := by cases a <;> rfl
@[simp] theorem markRaced_pending (a : Option Byte) : (markRaced a s).pending = s.pending := by cases a <;> rfl
@[simp] theorem markRaced_dp (a : Option Byte) : (markRaced a s).dp = { s.dp with raced := a.or s.dp.raced } := by
  cases a <;> rfl

end Sys2Proof.Machine
end

