-- ==== Sys2Proof/Laws/PerInstr.lean ====
section
/-! SUPPORT. A law of the commands as syntax, one lemma for each. -/

namespace Sys2Proof.Laws

/-- R181: a well-formed command carries at most one frame, and that frame has a payload of 0 to 24 bytes. -/
def CarriedFrame.Statement (i : Instr) : Prop :=
  i.wellFormed = true → ∀ x ∈ i.frame?, x.2.payload.length ≤ 24

/-- A command that carries one frame. -/
theorem CarriedFrame.of_frame {i : Instr} {f : Port × Machine.Frame} (h : i.frame? = some f)
    (hl : i.wellFormed = true → f.2.payload.length ≤ 24) : CarriedFrame.Statement i := by
  intro hw x hx
  rw [h] at hx
  obtain rfl := Option.some.inj hx
  exact hl hw

/-- A command that carries none. -/
theorem CarriedFrame.of_none {i : Instr} (h : i.frame? = none) : CarriedFrame.Statement i := by
  intro _ x hx
  rw [h] at hx
  exact absurd hx (by simp)

theorem CarriedFrame.powerOn : CarriedFrame.Statement .powerOn :=
  CarriedFrame.of_none rfl

theorem CarriedFrame.resetLow : CarriedFrame.Statement .resetLow :=
  CarriedFrame.of_none rfl

theorem CarriedFrame.resetRise : CarriedFrame.Statement .resetRise :=
  CarriedFrame.of_none rfl

theorem CarriedFrame.imageCheckComplete (answer : MemoryRead) : CarriedFrame.Statement (.imageCheckComplete answer) :=
  CarriedFrame.of_none rfl

theorem CarriedFrame.stopPress : CarriedFrame.Statement .stopPress :=
  CarriedFrame.of_none rfl

theorem CarriedFrame.stopRelease : CarriedFrame.Statement .stopRelease :=
  CarriedFrame.of_none rfl

theorem CarriedFrame.damagedFrame (port : Port) (run : List LineByte) : CarriedFrame.Statement (.damagedFrame port run) :=
  CarriedFrame.of_none rfl

theorem CarriedFrame.undefinedClassFrame (port : Port) (cls : BitVec 4) (h : Header) (payload : List Byte) : CarriedFrame.Statement (.undefinedClassFrame port cls h payload) :=
  CarriedFrame.of_frame rfl fun w => of_decide_eq_true (Bool.and_eq_true_iff.mp w).2

theorem CarriedFrame.frameWithoutUser (port : Port) (cls : BitVec 4) (h : Header) (payload : List Byte) : CarriedFrame.Statement (.frameWithoutUser port cls h payload) :=
  CarriedFrame.of_frame rfl fun w => of_decide_eq_true (Bool.and_eq_true_iff.mp w).2

theorem CarriedFrame.coilSample (h : Header) (payload : List Byte) : CarriedFrame.Statement (.coilSample h payload) :=
  CarriedFrame.of_frame rfl of_decide_eq_true

theorem CarriedFrame.inclineSample (h : Header) (payload : List Byte) : CarriedFrame.Statement (.inclineSample h payload) :=
  CarriedFrame.of_frame rfl of_decide_eq_true

theorem CarriedFrame.contactSample (h : Header) (payload : List Byte) : CarriedFrame.Statement (.contactSample h payload) :=
  CarriedFrame.of_frame rfl of_decide_eq_true

theorem CarriedFrame.powerSample (h : Header) (payload : List Byte) : CarriedFrame.Statement (.powerSample h payload) :=
  CarriedFrame.of_frame rfl of_decide_eq_true

theorem CarriedFrame.rainSample (h : Header) (payload : List Byte) : CarriedFrame.Statement (.rainSample h payload) :=
  CarriedFrame.of_frame rfl of_decide_eq_true

theorem CarriedFrame.driveStatus (h : Header) (payload : List Byte) : CarriedFrame.Statement (.driveStatus h payload) :=
  CarriedFrame.of_frame rfl of_decide_eq_true

theorem CarriedFrame.wheelSpeed (h : Header) (rest : List Byte) : CarriedFrame.Statement (.wheelSpeed h rest) :=
  CarriedFrame.of_frame rfl fun w => Nat.succ_le_succ (of_decide_eq_true w)

theorem CarriedFrame.bladeSpeed (h : Header) (rest : List Byte) : CarriedFrame.Statement (.bladeSpeed h rest) :=
  CarriedFrame.of_frame rfl fun w => Nat.succ_le_succ (of_decide_eq_true w)

theorem CarriedFrame.bladeStart (h : Header) (rest : List Byte) : CarriedFrame.Statement (.bladeStart h rest) :=
  CarriedFrame.of_frame rfl fun w => Nat.succ_le_succ (of_decide_eq_true w)

theorem CarriedFrame.bladeStop (h : Header) (rest : List Byte) : CarriedFrame.Statement (.bladeStop h rest) :=
  CarriedFrame.of_frame rfl fun w => Nat.succ_le_succ (of_decide_eq_true w)

theorem CarriedFrame.deckHeight (h : Header) (rest : List Byte) : CarriedFrame.Statement (.deckHeight h rest) :=
  CarriedFrame.of_frame rfl fun w => Nat.succ_le_succ (of_decide_eq_true w)

theorem CarriedFrame.brake (h : Header) (rest : List Byte) : CarriedFrame.Statement (.brake h rest) :=
  CarriedFrame.of_frame rfl fun w => Nat.succ_le_succ (of_decide_eq_true w)

theorem CarriedFrame.ping (h : Header) (rest : List Byte) : CarriedFrame.Statement (.ping h rest) :=
  CarriedFrame.of_frame rfl fun w => Nat.succ_le_succ (of_decide_eq_true w).2

theorem CarriedFrame.undefinedRequest (h : Header) (payload : List Byte) : CarriedFrame.Statement (.undefinedRequest h payload) :=
  CarriedFrame.of_frame rfl fun w => (of_decide_eq_true (Bool.and_eq_true_iff.mp w).1).2

theorem CarriedFrame.readTable (h : Header) (rest : List Byte) : CarriedFrame.Statement (.readTable h rest) :=
  CarriedFrame.of_frame rfl fun w => Nat.succ_le_succ (of_decide_eq_true w).2

theorem CarriedFrame.writeTable (h : Header) (rest : List Byte) : CarriedFrame.Statement (.writeTable h rest) :=
  CarriedFrame.of_frame rfl fun w => Nat.succ_le_succ (of_decide_eq_true w).2

theorem CarriedFrame.readStatusStack (h : Header) (tag : Byte) (rest : List Byte) : CarriedFrame.Statement (.readStatusStack h tag rest) :=
  CarriedFrame.of_frame rfl fun w => Nat.add_le_add_right (of_decide_eq_true w).2 3

theorem CarriedFrame.readStatusEnvelope (h : Header) (tag : Byte) (rest : List Byte) : CarriedFrame.Statement (.readStatusEnvelope h tag rest) :=
  CarriedFrame.of_frame rfl fun w => Nat.add_le_add_right (of_decide_eq_true w).2 3

theorem CarriedFrame.readStatusLoops (h : Header) (tag : Byte) (rest : List Byte) : CarriedFrame.Statement (.readStatusLoops h tag rest) :=
  CarriedFrame.of_frame rfl fun w => Nat.add_le_add_right (of_decide_eq_true w).2 3

theorem CarriedFrame.readStatusCells (h : Header) (tag : Byte) (rest : List Byte) : CarriedFrame.Statement (.readStatusCells h tag rest) :=
  CarriedFrame.of_frame rfl fun w => Nat.add_le_add_right (of_decide_eq_true w).2 3

theorem CarriedFrame.readStatusHazards (h : Header) (tag : Byte) (rest : List Byte) : CarriedFrame.Statement (.readStatusHazards h tag rest) :=
  CarriedFrame.of_frame rfl fun w => Nat.add_le_add_right (of_decide_eq_true w).2 3

theorem CarriedFrame.readStatusDrives (h : Header) (tag : Byte) (rest : List Byte) : CarriedFrame.Statement (.readStatusDrives h tag rest) :=
  CarriedFrame.of_frame rfl fun w => Nat.add_le_add_right (of_decide_eq_true w).2 3

theorem CarriedFrame.readStatusRefusal (h : Header) (tag : Byte) (rest : List Byte) : CarriedFrame.Statement (.readStatusRefusal h tag rest) :=
  CarriedFrame.of_frame rfl fun w => Nat.add_le_add_right (of_decide_eq_true w).2 3

theorem CarriedFrame.readStatusImage (h : Header) (tag : Byte) (rest : List Byte) : CarriedFrame.Statement (.readStatusImage h tag rest) :=
  CarriedFrame.of_frame rfl fun w => Nat.add_le_add_right (of_decide_eq_true w).2 3

theorem CarriedFrame.startMow (h : Header) (rest : List Byte) : CarriedFrame.Statement (.startMow h rest) :=
  CarriedFrame.of_frame rfl fun w => Nat.succ_le_succ (of_decide_eq_true w).2

theorem CarriedFrame.goHome (h : Header) (rest : List Byte) : CarriedFrame.Statement (.goHome h rest) :=
  CarriedFrame.of_frame rfl fun w => Nat.succ_le_succ (of_decide_eq_true w).2

theorem CarriedFrame.leaveDock (h : Header) (rest : List Byte) : CarriedFrame.Statement (.leaveDock h rest) :=
  CarriedFrame.of_frame rfl fun w => Nat.succ_le_succ (of_decide_eq_true w).2

theorem CarriedFrame.pause (h : Header) (rest : List Byte) : CarriedFrame.Statement (.pause h rest) :=
  CarriedFrame.of_frame rfl fun w => Nat.succ_le_succ (of_decide_eq_true w).2

theorem CarriedFrame.resume (h : Header) (rest : List Byte) : CarriedFrame.Statement (.resume h rest) :=
  CarriedFrame.of_frame rfl fun w => Nat.succ_le_succ (of_decide_eq_true w).2

theorem CarriedFrame.runManoeuvre (h : Header) (rest : List Byte) : CarriedFrame.Statement (.runManoeuvre h rest) :=
  CarriedFrame.of_frame rfl fun w => Nat.succ_le_succ (of_decide_eq_true w).2

theorem CarriedFrame.storeImage (h : Header) (rest : List Byte) : CarriedFrame.Statement (.storeImage h rest) :=
  CarriedFrame.of_frame rfl fun w => Nat.succ_le_succ (of_decide_eq_true w).2

theorem CarriedFrame.loadImage (h : Header) (rest : List Byte) : CarriedFrame.Statement (.loadImage h rest) :=
  CarriedFrame.of_frame rfl fun w => Nat.succ_le_succ (of_decide_eq_true w).2

theorem CarriedFrame.restart (h : Header) (rest : List Byte) : CarriedFrame.Statement (.restart h rest) :=
  CarriedFrame.of_frame rfl fun w => Nat.succ_le_succ (of_decide_eq_true w).2

theorem CarriedFrame.storeComplete : CarriedFrame.Statement .storeComplete :=
  CarriedFrame.of_none rfl

theorem CarriedFrame.storeFailure : CarriedFrame.Statement .storeFailure :=
  CarriedFrame.of_none rfl

theorem CarriedFrame.loadComplete (answer : MemoryRead) : CarriedFrame.Statement (.loadComplete answer) :=
  CarriedFrame.of_none rfl

theorem CarriedFrame.fadeTimerExpiry (loop : Fin 8) : CarriedFrame.Statement (.fadeTimerExpiry loop) :=
  CarriedFrame.of_none rfl

theorem CarriedFrame.nodeDeadlineExpiry (node : Fin 8) : CarriedFrame.Statement (.nodeDeadlineExpiry node) :=
  CarriedFrame.of_none rfl

theorem CarriedFrame.holdTimerExpiry (source : Fin 16) : CarriedFrame.Statement (.holdTimerExpiry source) :=
  CarriedFrame.of_none rfl

theorem CarriedFrame.wireLostDelayExpiry : CarriedFrame.Statement .wireLostDelayExpiry :=
  CarriedFrame.of_none rfl

theorem CarriedFrame.stepTimerExpiry : CarriedFrame.Statement .stepTimerExpiry :=
  CarriedFrame.of_none rfl

theorem CarriedFrame.escapeCompletionReport : CarriedFrame.Statement .escapeCompletionReport :=
  CarriedFrame.of_none rfl

theorem CarriedFrame.trapReport : CarriedFrame.Statement .trapReport :=
  CarriedFrame.of_none rfl

theorem CarriedFrame.stopStepStart : CarriedFrame.Statement .stopStepStart :=
  CarriedFrame.of_none rfl

theorem CarriedFrame.sendComplete : CarriedFrame.Statement .sendComplete :=
  CarriedFrame.of_none rfl

theorem CarriedFrame.replyTimerExpiry : CarriedFrame.Statement .replyTimerExpiry :=
  CarriedFrame.of_none rfl

theorem CarriedFrame.refreshTimerExpiry : CarriedFrame.Statement .refreshTimerExpiry :=
  CarriedFrame.of_none rfl

theorem CarriedFrame.livenessTimerExpiry : CarriedFrame.Statement .livenessTimerExpiry :=
  CarriedFrame.of_none rfl

theorem CarriedFrame.cpLineFree : CarriedFrame.Statement .cpLineFree :=
  CarriedFrame.of_none rfl

theorem CarriedFrame.powerLoss : CarriedFrame.Statement .powerLoss :=
  CarriedFrame.of_none rfl

end Sys2Proof.Laws
end

