-- ==== Sys2Proof/Tests/Slice0.lean ====
section
/-! SUPPORT. Tests of the model's own: ill-formed commands refused, worked examples of the manual, and for every statement a witness of its
hypotheses. -/

namespace Sys2Proof.Tests

set_option Elab.async false

open Sys2Proof Sys2Proof.Machine

/-! ### Helpers -/

/-- A header with a claimed rank, a node and an epoch. -/
def hd (rank : BitVec 2) (node epoch : Byte) : Header := ⟨rank, false, false, node, epoch⟩

/-- The header of a management request at rank 1. -/
def req : Header := hd 1 0x01 0

/-- The state a command leaves. -/
def after (c : Instr) (s : State) : State := match exec c s with
  | .next t => t
  | .fault _ | .refused _ => s

/-- The outcome is a next state. -/
def goesOn (o : Host.Outcome State Fault Refusal) : Bool := match o with
  | .next _ => true
  | .fault _ | .refused _ => false

theorem next_of_goesOn {o : Host.Outcome State Fault Refusal} (h : goesOn o = true) : ∃ t, o = .next t := by
  cases o with
  | next t => exact ⟨t, rfl⟩
  | fault r => cases h
  | refused r => cases h

theorem exec_after {c : Instr} {s : State} (h : goesOn (exec c s) = true) : exec c s = .next (after c s) := by
  obtain ⟨t, ht⟩ := next_of_goesOn h
  simp [after, ht]

/-- The token whose frame is going out on DP. -/
def sentToken (s : State) : Option Token := match s.dp.cycle with
  | .sending f => some f.token
  | .idle | .awaitReply _ => none

/-- READY with the built-in tables. -/
def ready : State := after (.imageCheckComplete .noAnswer) State.reset

/-- The built-in tables with every node and drive present, coils 0 to 3 FRONT, LEFT, RIGHT, REAR, loop 0 enabled. -/
def fitted : Tables :=
  { builtinTables with
    coil := .ofFn fun i => { builtinCoil i with present := true }
    loop := .ofFn fun i => { builtinLoop i with enabled := i = 0 }
    drive := .ofFn fun i => { builtinDrive i with present := true }
    sensor := { builtinSensor with
      incline := { builtinSensor.incline with present := true }, contact := { builtinSensor.contact with present := true }
      power := { builtinSensor.power with present := true }, rain := { builtinSensor.rain with present := true } } }

/-- READY with those tables. -/
def on : State := ready.setTables fitted

def withStack (k : Stack) (s : State) : State := s.setStack k

def mowing : State := withStack { idleStack with mow := some ⟨0⟩ } on
def followRec : FollowRec := ⟨false, 0, 0, .seek, 0, false, 0⟩
def dockedRec : DockedRec := ⟨0, true, false⟩
def escRec : EscRec := ⟨.request, 0, 0, 0, 0, 0, 0⟩
def haltRec : HaltRec := ⟨0, CauseSet.none.add .pause⟩
def following : State := withStack { idleStack with home := some (.follow followRec) } on
def docked : State := withStack { idleStack with home := some (.docked dockedRec) } on
def escaping : State := withStack { idleStack with esc := some escRec } on
def halted : State := withStack { idleStack with halt := some haltRec } on

/-- A source record of one number replaced. -/
def withSource (i : Fin 16) (r : SrcRec) (s : State) : State := setSource i r s

/-- A cell of the gate table replaced. -/
def withCell (row : Fin 12) (top : Kind) (c : GateCell) (s : State) : State :=
  s.setTables { s.tables with gate := s.tables.gate.setIfInBounds (cellIndex row top) c }

/-- A loop followed, with the filtered state of its front coil cell. -/
def locked (l : Fin 8) (e : Int) : State :=
  on.setDec ((on.dec.setTracker l { freshTracker true with state := .locked }).setCell l 0 { emptyCell with mark := .fresh, e := e })

/-! ### WellFormed: one ill-formed command for each check -/

theorem test_wf_damaged_but_sound :
    (Instr.damagedFrame .cp ((frameBytes 9 req [1]).map fun b => ⟨b, true⟩)).wellFormed = false := by decide +kernel
theorem test_wf_undefinedClass_defined : (Instr.undefinedClassFrame .cp 9 req []).wellFormed = false := by decide
theorem test_wf_undefinedClass_long : (Instr.undefinedClassFrame .cp 10 req (List.replicate 25 0)).wellFormed = false := by
  decide
theorem test_wf_frameWithoutUser_drive : (Instr.frameWithoutUser .cp 5 req [6]).wellFormed = false := by decide
theorem test_wf_frameWithoutUser_request : (Instr.frameWithoutUser .cp 7 req []).wellFormed = false := by decide
theorem test_wf_frameWithoutUser_sample : (Instr.frameWithoutUser .sp 4 req []).wellFormed = false := by decide
theorem test_wf_frameWithoutUser_status : (Instr.frameWithoutUser .dp 6 req []).wellFormed = false := by decide
theorem test_wf_frameWithoutUser_undefined : (Instr.frameWithoutUser .sp 10 req []).wellFormed = false := by decide
theorem test_wf_frameWithoutUser_long : (Instr.frameWithoutUser .dp 0 req (List.replicate 25 0)).wellFormed = false := by
  decide
theorem test_wf_sample_long : (Instr.coilSample req (List.replicate 25 0)).wellFormed = false := by decide
theorem test_wf_drive_long : (Instr.brake req (List.replicate 24 0)).wellFormed = false := by decide
theorem test_wf_undefinedRequest_known : (Instr.undefinedRequest req [13]).wellFormed = false := by decide
theorem test_wf_undefinedRequest_selector : (Instr.undefinedRequest req [4, 0, 7]).wellFormed = false := by decide
theorem test_wf_undefinedRequest_node : (Instr.undefinedRequest (hd 1 2 0) [0]).wellFormed = false := by decide
theorem test_wf_undefinedRequest_long : (Instr.undefinedRequest req (List.replicate 25 0)).wellFormed = false := by decide
theorem test_wf_request_node : (Instr.ping (hd 1 2 0) [7]).wellFormed = false := by decide
theorem test_wf_request_long : (Instr.ping req (List.replicate 24 0)).wellFormed = false := by decide
theorem test_wf_status_node : (Instr.readStatusStack (hd 1 2 0) 7 []).wellFormed = false := by decide
theorem test_wf_status_long : (Instr.readStatusStack req 7 (List.replicate 22 0)).wellFormed = false := by decide

/-! ### Worked examples of the manual -/

/-- R211: the check word of the nine bytes 0x31 to 0x39. -/
theorem test_checkWord_nine_bytes :
    checkWord [0x31, 0x32, 0x33, 0x34, 0x35, 0x36, 0x37, 0x38, 0x39] = 0x29B1#16 := by decide +kernel

/-- Chapter 2, event 1: the samples of the worked frame under loop 0's code. -/
def workedSamples : List Int := [42, 37, 41, -40, 39, -38, -40, 38, -39, 41, 38, -40, -37, -41, 40, -38]

theorem test_correlation_on_time : correlation (builtinCode 0) workedSamples 0 = 629 := by decide
theorem test_correlation_early : correlation (builtinCode 0) workedSamples 15 = -161 := by decide
theorem test_correlation_late : correlation (builtinCode 0) workedSamples 1 = -159 := by decide

/-- Chapter 2: strength 786 at gain 80 lies at 54 cm. -/
theorem test_strength_and_distance :
    strength false 629 80 = 786 ∧ distance builtinTables 786 = 54 := by decide +kernel

/-- Chapter 1: the four updates of one cell. -/
theorem test_filter_four_updates :
    filterStep 4 54 960 = 936 ∧ filterStep 4 54 936 = 918 ∧ filterStep 4 (-10) 918 = 649 := by decide

/-- Chapter 6: the five rows of the steering example. -/
theorem test_steering_rows :
    steerPair builtinHome .track 200 = (500, 400) ∧ steerPair builtinHome .track (-90) = (428, 472) ∧
    steerPair builtinHome .track 780 = (645, 255) ∧ steerPair builtinHome .track 1000 = (450, 450) ∧
    steerPair builtinHome .seek 200 = (470, 530) := by decide

/-- Chapter 6: the held pairs of the rows that K scales. -/
theorem test_scale_rows : scaleWheels 500 400 450 = (450, 360) ∧ scaleWheels 645 255 600 = (600, 237) := by decide

/-- Chapter 8, event 3: 14 mm go out of 14800, 800 remains. -/
theorem test_odometry_rest : odometry 0 37 400 = (14, 800) := by decide

/-- R110: a baseline of 3590 and a heading of 20 are 30 apart. -/
theorem test_heading_wraps : headingChange 20 3590 = 30 := by decide

/-- Section 2.3: with the defaults K is 200 at READY, proximity 250, slope 200, load and hazard 1000, activity 500. -/
theorem test_caps_at_ready : ready.env.caps = ⟨250, 200, 1000, 1000, 500⟩ ∧ ready.env.k = 200 := by decide +kernel

/-- Chapter 7, order 1: a WHEEL-SPEED under ESCAPE is refused with GATED at cell 4. -/
theorem test_gate_order_1 : (after (.wheelSpeed (hd 3 0x01 0) [0, 0, 0, 0]) escaping).gate.refusal =
    some ⟨.gated, 5, 1, 4, 0⟩ := by decide +kernel

/-- Chapter 7, order 2: a GO-HOME under ESCAPE enters the slot, its reply DEFERRED with cell 46. -/
theorem test_gate_order_2 : let t := after (.goHome (hd 3 0x01 0) [9, 1]) escaping
    t.gate.deferred = some ⟨.goHome 1, 9, 3, 0, 0⟩ ∧ t.port.replies = [⟨6, 9, .deferred, 46, 0, 0, [[]]⟩] := by
  decide +kernel

/-- Chapter 7, order 5: RUN-MANOEUVRE 3 at rank 2 is refused with RANK at cell 70. -/
theorem test_gate_order_5 : (after (.runManoeuvre (hd 2 0x01 0) [9, 3]) escaping).gate.refusal =
    some ⟨.rank, 7, 10, 70, 0⟩ := by decide +kernel

/-- Chapter 7, event 6: the completion of the escape lets the deferred GO-HOME push FOLLOW over MOW; the epoch rises once. -/
theorem test_gate_event_6 :
    let s := ((withStack { idleStack with mow := some ⟨0⟩, esc := some escRec } on).setGate
      ⟨none, some ⟨.goHome 1, 9, 3, 0, 0⟩⟩).setReports [.completion 0]
    let t := after .escapeCompletionReport s
    t.top = .follow ∧ t.act.epoch = 1 ∧ t.gate.deferred = none ∧ t.act.stack.follow?.map FollowRec.endAfter = some true := by
  decide +kernel

/-- Chapter 3, event 1: a bump under MOW pushes ESCAPE m0, whose step 0 asks for (−300, −300). -/
theorem test_bump_under_mow : let t := after (.contactSample (hd 0 0x39 0) [1]) mowing
    t.act.stack.esc = some ⟨.source 3, 1, 0, 0, 0, 0, 0⟩ ∧ (t.env.req.left, t.env.req.right) = (-300, -300) := by
  decide +kernel

/-- Chapter 5, event 4: a source in the abort mask replaces the escape, the chain count one higher. -/
theorem test_stall_replaces_escape : (setCondition srcStallLeft true escaping).act.stack.esc =
    some ⟨.source 5, 1, 3, 0, 0, 0, 1⟩ := by decide +kernel

/-- Chapter 6, sample 7: the third contact docks the mower. -/
theorem test_dock_confirm :
    let s := withStack { idleStack with mow := some ⟨0⟩, home := some (.follow { followRec with phase := .contact, confirm := 2 }) } on
    let t := after (.powerSample (hd 0 0x3A 0) [50, 0, 0, 0xB8, 0x56, 0, 0, 20, 0]) s
    t.act.stack.home = some (.docked ⟨1, true, false⟩) ∧ t.act.stack.mow = some ⟨0⟩ ∧ t.env.k = 0 := by
  decide +kernel

/-- Chapter 8, event 1: the refresh takes LEFT SPEED at once and leaves four tokens. -/
theorem test_refresh_takes_left : let t := after .refreshTimerExpiry (on.setDp { quietDrivePort with refreshTimer := some 0 })
    t.dp.queue = [.wheelSpeed .right, .bladeSpeed .bladeA, .bladeSpeed .bladeB, .bladeSpeed .bladeC] ∧
      t.dp.cycle = .sending ⟨.wheelSpeed .left, 0x10, frameBytes 5 (ownHeader 0x10 0) [1, 0, 0]⟩ := by decide +kernel

/-- The masked write of chapter 10: loop 1 enabled, Tlock 150, lose count 12. -/
def loopWrite (rank : BitVec 2) : Instr := .writeTable (hd rank 0x01 0) [5, 2, 1, 1, 0x21, 0x01, 0, 0, 1, 150, 0, 12]

/-- Chapter 10, event 1: refused with RANK at rank 2. -/
theorem test_loop_write_rank : (after (loopWrite 2) on).port.replies = [⟨3, 5, .rank, 0, 0, 0, [[]]⟩] := by decide +kernel

/-- Chapter 10, event 2: mask bit 13 is refused with UNDEFINED at offset 10. -/
theorem test_loop_write_mask :
    (after (.writeTable req [5, 2, 1, 1, 0x21, 0x21, 0, 0, 1, 150, 0, 12]) on).port.replies =
      [⟨3, 5, .undefined, 10, 0, 0, [[]]⟩] := by decide +kernel

/-- Chapter 10, event 3: taken CLAMPED with offset 16; the lose count is 8 and Tlose 149. -/
theorem test_loop_write_clamped : let t := after (loopWrite 1) on
    t.port.replies = [⟨3, 5, .clamped, 16, 0, 0, [[]]⟩] ∧
      t.tables.loop[1] = { builtinLoop 1 with enabled := true, tlock := 150, tlose := 149, loseCount := 8 } ∧
      t.dec.trackers[1].state = .search := by decide +kernel

/-- Chapter 9, events 1 and 2: a copy joins the mirror queue and pushes the oldest out of a full one. -/
theorem test_mirror_queue_full :
    (mirrorCopy [9] (on.setPort { on.port with mirrors := [[1], [2], [3], [4], [5], [6], [7], [8]] })).port.mirrors =
      [[2], [3], [4], [5], [6], [7], [8], [9]] := by decide +kernel

/-- R206: after a power loss during a store the mark stays BAD and the device is LOADING without supply. -/
theorem test_power_loss_in_store :
    let t := after .powerLoss (after (.storeImage req [4]) on)
    t.mgmt.mark = .bad ∧ t.mgmt.startup = .loading ∧ t.mgmt.op = none ∧ t.pins.power = false := by decide +kernel

/-- An idle step of a device that waits for its image check lets a millisecond pass; nothing is due. -/
theorem test_idle_at_reset : step State.reset = .next State.reset := by rfl

/-- R212: while RESET is low DPDE and MCLK are low, CPTX is idle and MDIO is released. -/
theorem test_outputs_under_reset : (after .resetLow on).outputs = ⟨false, true, true, true⟩ ∧ on.outputs.mclkHeldLow = false := by
  decide +kernel

/-- R73: a deferred drive command is refused with STALE at a top change, also when its epoch has come round again. -/
theorem test_deferred_drive_command_is_stale :
    let s := (withStack { idleStack with mow := some ⟨0⟩, esc := some escRec } on).setGate ⟨none, some ⟨.brake 0, 0, 1, 1, 0⟩⟩
    let t := after .escapeCompletionReport (s.setReports [.completion 0])
    t.top = .mow ∧ t.act.epoch = 1 ∧ t.gate = ⟨some ⟨.stale, 5, 6, 2, 0⟩, none⟩ := by decide +kernel

/-- R168: a reply that comes together with the expiry of its wait is taken in although the next token has been taken. -/
theorem test_reply_with_expiry :
    let s := on.setDp { quietDrivePort with
      cycle := .awaitReply ⟨.wheelSpeed .left, 0x10, []⟩, replyTimer := some 0, queue := [.wheelSpeed .right] }
    let t := after .replyTimerExpiry s
    let u := after (.driveStatus (hd 0 0x10 0) [0, 0, 0, 0, 0, 0, 0]) t
    (t.dp.recOf (.wheel .left)).miss = 1 ∧ (u.dp.recOf (.wheel .left)).miss = 0 ∧ (u.dp.recOf (.wheel .left)).state = .active ∧
      u.dp.cycle = t.dp.cycle ∧ u.dp.raced = none := by decide +kernel

/-- R91: a DOCKED record that comes and leaves again in one event makes BATTERY-LOW false and forms it anew, so that RETURN fires again. -/
theorem test_dock_and_leave_in_one_event :
    let s := withStack { idleStack with
      mow := some ⟨0⟩, home := some (.follow { followRec with phase := .contact, confirm := 2 }) } on
    let low : KeptSamples := { noSamples with power := ⟨10, 0, 0, 0, 0, false⟩, powerTaken := true }
    let s1 := ((s.setHaz { s.haz with kept := low }).setGate ⟨none, some ⟨.leaveDock, 9, 3, 0, 0⟩⟩)
    let t := after (.powerSample (hd 0 0x3A 0) [10, 0, 0, 0xB8, 0x56, 0, 0, 20, 0])
      (setSource srcBatteryLow { freshSource with cond := true, state := .raised } s1)
    t.top = .escape ∧ t.srcState srcBatteryLow = .raised ∧ t.act.pendingReturn = true := by decide +kernel

/-- R32, R208: a load that makes the loop with a cell on the wrong side a PERIMETER loop re-evaluates the outputs only when every cell is
emptied: OUTSIDE does not rise. -/
theorem test_load_re_evaluates_once :
    let tables := { fitted with loop := fitted.loop.setIfInBounds 6 { fitted.loop[6] with cls := .perimeter, enabled := true } }
    let t := replaceTables tables (locked 6 (-8000))
    t.tables.loop[6].cls = .perimeter ∧ t.dec.outside = false ∧ t.srcState srcOutside = .quiet ∧
      (reevaluate ((locked 6 (-8000)).setTables tables)).dec.outside = true := by decide +kernel

/-! ### Witnesses: states and operands that meet the hypotheses of the statements, clause by clause -/

theorem witness_StepTakesTheFrontCommand : ∃ t, exec .stopPress on = .next t := ⟨_, rfl⟩

/-- Loop 0's fade timer at a count, nothing to send. -/
def quietWith (n : Nat) : State :=
  (on.setDec (on.dec.setTracker 0 { freshTracker true with state := .fading, fade := some n })).setHaz { on.haz with pending := 0 }

theorem witness_StepsWithoutCommandsAreTheDevicesOwn :
    (on.pending = [] ∧ on.live = true ∧ on.reports = [] ∧ on.port.line = .free ∧ on.haz.pending ≠ 0 ∧ ownEvent on = some .cpLineFree) ∧
    ((on.setPins { on.pins with power := false }).pending = [] ∧ (on.setPins { on.pins with power := false }).live = false) ∧
    ((on.setReports [.stopStepStart]).pending = [] ∧ (on.setReports [.stopStepStart]).live = true ∧
      (on.setReports [.stopStepStart]).reports = .stopStepStart :: []) ∧
    ((quietWith 0).pending = [] ∧ (quietWith 0).live = true ∧ (quietWith 0).reports = [] ∧ (quietWith 0).port.replies = [] ∧
      (quietWith 0).haz.pending = 0 ∧ (quietWith 0).port.mirrors = [] ∧ ownEvent (quietWith 0) = some (.fadeTimerExpiry 0)) ∧
    ((quietWith 1).pending = [] ∧ (quietWith 1).live = true ∧ ownEvent (quietWith 1) = none ∧ (quietWith 1).running? = none) := by
  decide +kernel

theorem witness_FrameRowsAreTheirFrames : (Instr.ping req [7]).frame? = some (.cp, ⟨7, req, [1, 7]⟩) := rfl

/-- A reply in a queue. -/
def someReply : Reply := ⟨1, 7, .done, 0, 0, 0, [[]]⟩

def fullQueue (s : State) : State := s.setPort { s.port with replies := List.replicate 4 someReply }

theorem witness_HeldAndLoadingDevicesTakeNoCommand :
    ((on.setPins { on.pins with power := false }).live = false ∧ (on.setPins { on.pins with resetLow := true }).live = false ∧
      Instr.cpLineFree ∉ [Instr.powerOn, .resetLow, .resetRise, .powerLoss, .stopPress, .stopRelease]) ∧
    State.reset.live = true ∧ State.reset.mgmt.startup = .loading ∧ placesUsed State.reset < 4 ∧
      placesUsed (fullQueue State.reset) = 4 ∧ (Instr.ping req [7]).frame? = some (.cp, ⟨7, req, 1 :: 7 :: []⟩) ∧
      (Instr.ping req []).frame? = some (.cp, ⟨7, req, [1]⟩) ∧ (Instr.undefinedRequest req []).frame? = some (.cp, ⟨7, req, []⟩) ∧
      (Instr.coilSample req [7]).frame? = some (.sp, ⟨0, req, [7]⟩) := by decide +kernel

theorem witness_StartUpAbandonsTheState : on.pins.power = true := by decide +kernel

set_option maxRecDepth 100000 in
/-- The image of the tables of `on` is good. -/
theorem good_image : checkImage 1 fitted.image = some (fitted, false) := by decide +kernel

theorem witness_ImageCheckPutsTablesInPlace : (State.reset.live = true ∧ State.reset.mgmt.startup = .loading) ∧
    checkImage 1 [] = none ∧ checkImage 1 fitted.image = some (fitted, false) :=
  ⟨by decide +kernel, by decide +kernel, good_image⟩

theorem placed_of_good {l : List Byte} {x : Tables × Bool} (h : checkImage 1 l = some x) (s : State) :
    (placeTables (.bytes l) s).tables = x.1 := by
  simp only [placeTables, readMemory, h, setImage, setMark, State.setMgmt_tables, State.setTables_tables]

theorem placed_fitted : (placeTables (.bytes fitted.image) State.reset).tables = fitted := placed_of_good good_image State.reset

/-- The tables of `on` with a wire-lost delay of 0. -/
def wireAtOnce : Tables := { fitted with sensor := { fitted.sensor with wireDelay := 0 } }

set_option maxRecDepth 100000 in
theorem good_image_wireAtOnce : checkImage 1 wireAtOnce.image = some (wireAtOnce, false) := by decide +kernel

/-- Each form of READY: STOP up, down, or pressed and up again; drives mapped or not; WIRE-LOST delayed or true at once. -/
theorem witness_ReadySettings :
    (∀ p ∈ [(false, false), (true, true), (false, true)],
      let s := State.reset.setPins { State.reset.pins with stopLow := p.1, stopLatch := p.2 }
      s.live = true ∧ s.mgmt.startup = .loading ∧ s.pins.stopLow = p.1 ∧ (s.pins.stopLow || s.pins.stopLatch) = p.2 ∧
        (placeTables .noAnswer s).tables.mapped (.wheel .left) = false ∧
        (placeTables .noAnswer s).tables.sensor.wireDelay ≠ 0) ∧
    (placeTables (.bytes fitted.image) State.reset).tables.mapped (.wheel .left) = true ∧
    wireHalts (placeTables (.bytes wireAtOnce.image) State.reset).tables = true := by
  rw [placed_fitted, placed_of_good good_image_wireAtOnce State.reset]; decide +kernel

theorem fixed_on : FixedSources on.tables := by unfold FixedSources; decide +kernel

theorem nothingWaits_mowing : NothingWaits mowing := by unfold NothingWaits; decide +kernel

/-- The device with STOP pressed. -/
def stopped : State := after .stopPress mowing

def shortStop : State := stopped.setTables { stopped.tables with
  hazard := .ofFn fun i => { builtinHazard i with hold := 0 } }

theorem fixed_stopped : FixedSources stopped.tables ∧ FixedSources shortStop.tables := by unfold FixedSources; decide +kernel

theorem witness_StopPressHaltsAndReleaseStartsTheHold :
    ((mowing.isReady = true ∧ FixedSources mowing.tables ∧ mowing.haz.sources[srcStop].cond = false ∧
      mowing.srcState srcStop = .quiet ∧ mowing.act.stack.halt = none ∧ NothingWaits mowing) ∧
    State.reset.live = true ∧ State.reset.mgmt.startup = .loading) ∧
    (FixedSources stopped.tables ∧ FixedSources shortStop.tables) ∧
    (stopped.isReady = true ∧ stopped.haz.sources[srcStop].cond = true ∧
      stopped.srcState srcStop = .raised ∧ stopped.tables.hazard[srcStop].hold ≠ 0) ∧
    shortStop.isReady = true ∧ shortStop.haz.sources[srcStop].cond = true ∧
      shortStop.srcState srcStop = .raised ∧ shortStop.tables.hazard[srcStop].hold = 0 :=
  ⟨⟨⟨by decide +kernel, fixed_on, by decide +kernel, by decide +kernel, rfl, nothingWaits_mowing⟩, by decide, rfl⟩, fixed_stopped,
    by decide +kernel⟩

theorem witness_TablesChangeOnlyByTakenWrites :
    (loopWrite 1).wellFormed = true ∧ (∃ t, exec (loopWrite 1) on = .next t) ∧
      (after (loopWrite 1) on).tables ≠ on.tables :=
  ⟨by decide, next_of_goesOn (by decide +kernel), by decide +kernel⟩

/-- An ESCAPE at the last chain count below the chain limit. -/
def lastChain : State := withStack { idleStack with esc := some { escRec with chain := 2 } } on

theorem witness_StepsKeepStoresBounded : (StoresBounded mowing ∧ ∃ t, step mowing = .next t) ∧
    (TablesSound lastChain ∧ lastChain.tables.home.chainLimit = 2 + 1) ∧ ∃ t, step lastChain = .next t :=
  ⟨⟨by unfold StoresBounded; decide +kernel, next_of_goesOn (by decide +kernel)⟩,
    ⟨⟨by unfold TablesValid; decide +kernel, by decide +kernel⟩, by decide +kernel⟩, next_of_goesOn (by decide +kernel)⟩

/-- A READY device after a press of STOP: N none, the inclination node not FRESH, the blades off, no SLOW source. -/
theorem envelope_stopped : EnvelopeSound stopped ∧ stopped.isReady = true := by
  have hn : stopped.env.n = none := by decide +kernel
  have hb : stopped.act.bladeEnable = false := by decide +kernel
  refine ⟨⟨by decide +kernel, by decide +kernel, by decide +kernel, by decide +kernel, fun _ => ⟨?_, ?_⟩⟩, by decide +kernel⟩
  · refine ⟨by decide +kernel, fun n h => by simp [hn] at h, fun h => absurd h (by decide +kernel), by decide +kernel,
      by decide +kernel, fun v h => by simp [hb] at h, by decide +kernel, by decide +kernel, by decide +kernel⟩
  · exact ⟨by decide +kernel, fun b => by cases b <;> decide +kernel, by decide +kernel⟩

theorem witness_StepsKeepTheEnvelope : EnvelopeSound stopped ∧ stopped.isReady = true ∧ ∃ t, step stopped = .next t :=
  ⟨envelope_stopped.1, envelope_stopped.2, next_of_goesOn (by decide +kernel)⟩

theorem witness_StepsKeepRecordsSound : RecordsSound stopped ∧ stopped.tables.hazard[srcStop].enabled = true ∧
    stopped.haz.sources[srcStop].cond = true ∧ ∃ t, step stopped = .next t :=
  ⟨by unfold RecordsSound SourceSound; decide +kernel, by decide +kernel, by decide +kernel, next_of_goesOn (by decide +kernel)⟩

/-- Mowing with the blades running. -/
def cutting : State := mowing.setAct { mowing.act with bladeEnable := true }

theorem witness_StepsKeepFixedEntriesAndBladesGuarded :
    (BladesSafe cutting ∧ cutting.act.bladeEnable = true) ∧ ∃ t, step cutting = .next t :=
  ⟨by unfold BladesSafe FixedSources FixedCells RecordsSound SourceSound BladesGuarded; decide +kernel,
    next_of_goesOn (by decide +kernel)⟩

theorem witness_ControllerNeverSteersAnAutonomousActivity :
    (Instr.brake req [0]).frame? = some (.cp, ⟨5, req, [6, 0]⟩) ∧ FixedCells halted.tables ∧ halted.top ≠ .idle ∧
      halted.top ≠ .mow ∧ ∃ t, exec (.brake req [0]) halted = .next t :=
  ⟨rfl, by unfold FixedCells; decide +kernel, by decide +kernel, by decide +kernel, next_of_goesOn (by decide +kernel)⟩

theorem witness_FramesTheirBytesAndReplyPiecesAgree : (List.replicate 24 (0 : Byte)).length ≤ 24 ∧
    checkRun (rxRun ((frameBytes 9 req [1, 2]).map fun b => ⟨b, true⟩)) = some ⟨9, req, [1, 2]⟩ := by decide +kernel

theorem witness_StoredImageLoadsBack : TablesValid builtinTables := by
  unfold TablesValid
  decide +kernel

theorem witness_CorrelationStrengthAndDistance :
    ((∀ i : Fin 16, -128 ≤ (Vector.replicate 16 (-128 : Int))[i] ∧ (Vector.replicate 16 (-128 : Int))[i] ≤ 127) ∧
      ∀ i : Fin 16, -128 ≤ (Vector.replicate 16 (127 : Int))[i] ∧ (Vector.replicate 16 (127 : Int))[i] ≤ 127) ∧
    (1 ≤ (builtinLoop 0).alpha ∧ (builtinLoop 0).alpha ≤ 16 ∧ emptyCell.mark ≠ .fresh ∧ emptyCell.e.natAbs ≤ 16000) ∧
    (∀ j : Fin 7, (builtinTables.point (j.val + 1)).f < (builtinTables.point j.val).f) ∧
      (∀ j : Fin 7, (builtinTables.point j.val).d ≤ (builtinTables.point (j.val + 1)).d) ∧
      (builtinTables.point 0).f ≤ 4000 ∧ 100 ≤ (builtinTables.point 7).f ∧ 4000 = (builtinTables.point 0).f ∧
      3999 < (builtinTables.point 0).f ∧ (builtinTables.point 1).f ≤ 2400 := by decide +kernel

/-- Each clause of the slip check and of the search on the worked samples of the manual: on time at rotation 0, early from 1, late from 15, a
tie of the neighbours; below Tlock, towards the lock count, at it. -/
theorem witness_TrackersAcquireFollowAndFade :
    let l := builtinLoop 0
    let c := fun (r : Fin 16) => (correlation l.code workedSamples r).natAbs
    let tied : List Int := 100 :: List.replicate 15 0
    (1 ≤ l.lockCount ∧ 1 ≤ l.loseCount) ∧
    (¬c 0 + l.slip < c 15 ∧ ¬c 0 + l.slip < c 1) ∧ (c 1 + l.slip < c 0 ∧ (¬c 1 + l.slip < c 2 ∨ c 2 < c 0)) ∧
    (c 15 + l.slip < c 0 ∧ (¬c 15 + l.slip < c 14 ∨ c 14 < c 0)) ∧
    (let x : List Int := [0, 40, 0, 40, -40, 0, 0, -40, 40, 0, 0, 0, -40, 0, -40, 40]
      let d := fun (r : Fin 16) => (correlation l.code x r).natAbs
      d 15 = d 1 ∧ d 0 + l.slip < d 15) ∧
    ((∀ r : Fin 16, c r ≤ c 0) ∧ l.tlock ≤ c 0 ∧ l.lockCount = 3) ∧
    ((∀ r : Fin 16, (correlation l.code tied r).natAbs ≤ (correlation l.code tied 0).natAbs) ∧
      (correlation l.code tied 0).natAbs < l.tlock) ∧
    (({ freshTracker true with state := .locked } : Tracker).state = .locked ∧
      ({ freshTracker true with state := .fading } : Tracker).state = .fading ∧ (freshTracker true).state = .search ∧
      (freshTracker false).state = .off) := by decide +kernel

/-- A loop and a cell count for the outputs: a PERIMETER or ISLAND loop followed, the cell FRESH, its coil's node not SILENT. -/
def counting (s : State) (l : Fin 8) (c : Fin 4) : Bool :=
  s.tables.loop[l].cls ≠ .guide && (s.dec.cell l c).mark = .fresh && s.dec.trackers[l].following && !nodeSilent s.haz (coilNode c)

/-- The wire lost though loop 0 was followed. -/
def wireGone : State := on.setDec { on.dec with wireLost := false }

theorem witness_DecoderOutputsFollowTheContributingCells :
    (∀ e ∈ [(-336 : Int), -335, -320, 0, 160], counting (locked 0 e) 0 0 = true ∧
      ∀ (l : Fin 8) (c : Fin 4), counting (locked 0 e) l c = true → l = 0 ∧ c = 0) ∧
    (∀ (l : Fin 8) (c : Fin 4), counting on l c = false) ∧ ((-336 : Int).tdiv 16 < -on.tables.home.outside) ∧
    (-(on.tables.home.outside : Int) ≤ (-335 : Int).tdiv 16 ∧ (-335 : Int).tdiv 16 < 0) ∧
    ((locked 0 0).dec.wireLost = true ∧ (reevaluate (locked 0 0)).dec.wireLost = false) ∧
    (wireGone.dec.wireLost = false ∧ (reevaluate wireGone).dec.wireLost = true ∧ wireGone.tables.sensor.wireDelay ≠ 0) ∧
    (wireGone.setTables { fitted with sensor := { fitted.sensor with wireDelay := 0 } }).tables.sensor.wireDelay = 0 := by
  decide +kernel

/-- FOLLOW on top in a phase, the guide loop 6 followed. -/
def followIn (p : Phase) (l : Fin 8) (guide : Option Nat) : State :=
  (withStack { idleStack with home := some (.follow { followRec with phase := p, loop := l }) } (locked 6 0)).setHome
    { freshHoming with guideView := guide }

theorem witness_HomingFollowsTheWire :
    (on.tables.loop[(0 : Fin 8)].enabled = true ∧ on.tables.frontCoil = some 0 ∧ nodeSilent on.haz (coilNode 0) = false ∧
      (trackerStep (fitted.loop[(0 : Fin 8)]) true false workedSamples on.dec.trackers[(0 : Fin 8)]).2 = none ∧
      (trackerStep (fitted.loop[(0 : Fin 8)]) true false workedSamples (locked 0 0).dec.trackers[(0 : Fin 8)]).2 ≠ none) ∧
    (∀ p ∈ [Phase.seek, .track, .approach, .contact], (followIn p 6 none).top = .follow ∧
      (followIn p 6 none).act.stack.follow? = some { followRec with phase := p, loop := 6 }) ∧
    (on.top ≠ .follow ∧ (followIn .seek 0 none).tables.home.guide = 6 ∧
      (followIn .seek 0 none).dec.trackers[(6 : Fin 8)].state = .locked ∧ on.tables.home.capture ≤ 600 ∧
      on.tables.home.approach ≤ 2400) ∧
    ((followIn .track 6 (some 600)).home.guideView = some 600 ∧ (followIn .track 6 none).home.guideView = none) := by
  decide +kernel

theorem witness_ConditionChangesMoveTheSource :
    let held : State := withSource 3 { freshSource with state := .held, hold := some 200 } on
    let off : State := on.setTables { fitted with hazard := fitted.hazard.setIfInBounds 3 { builtinHazard 3 with enabled := false } }
    on.haz.sources[(3 : Fin 16)].cond = false ∧ on.tables.hazard[(3 : Fin 16)].enabled = true ∧ on.srcState 3 = .quiet ∧
      off.tables.hazard[(3 : Fin 16)].enabled = false ∧ held.haz.sources[(3 : Fin 16)].cond = false ∧ held.srcState 3 = .held ∧
      stopped.haz.sources[srcStop].cond = true ∧ stopped.srcState srcStop = .raised := by decide +kernel

/-- Source 7, of response SLOW with cap 300, is RAISED; the blades run with loads, and inclination is FRESH. -/
def slowed : State :=
  let s := withSource srcOverload { freshSource with cond := true, state := .raised } (setNode 4 (some ⟨.fresh, some 60⟩) cutting)
  s.setEnv { s.env with n := some 20, pitch := -100, percents := ⟨130, 120, 0⟩ }

theorem witness_SourceCapsFollowTheirInputs :
    (on.env.n = none ∧ slowed.env.n = some 20 ∧ (slowed.setEnv { slowed.env with n := some (-1) }).env.n = some (-1)) ∧
    (slowed.haz.nodes[(4 : Fin 8)].map NodeRec.state = some .fresh ∧ on.haz.nodes[(4 : Fin 8)].map NodeRec.state ≠ some .fresh) ∧
    (on.act.bladeEnable = false ∧ slowed.act.bladeEnable = true ∧
      (∀ b ∈ Blade.all, slowed.tables.mapped (.blade b) = true ∧ slowed.env.percents.get b ≤ 130) ∧
      slowed.env.percents.get .bladeA = 130) ∧
    (slowed.tables.hazard[srcOverload].response = .slow ∧ slowed.srcState srcOverload = .raised) := by decide +kernel

/-- A taken WHEEL-SPEED of 100 and −50 mm/s; the tokens of both wheels join, and LEFT's goes out. -/
theorem witness_WheelsScaleToTheCap :
    let i := Instr.wheelSpeed req [100, 0, 0xCE, 0xFF]
    (max (500 : Int).natAbs (400 : Int).natAbs ≤ 500 ∧ 499 < max (500 : Int).natAbs (400 : Int).natAbs) ∧
    i.wellFormed = true ∧ (∀ h r, i ≠ .restart h r) ∧ on.isReady = true ∧ (after i on).isReady = true ∧
      exec i on = .next (after i on) ∧
      (HeldChanged (.wheelSpeed .left) on.env.held (after i on).env.held ∧
        HeldChanged (.wheelSpeed .right) on.env.held (after i on).env.held) ∧
      ((after i on).tables.mapped (.wheel .left) = true ∧ (after i on).tables.mapped (.wheel .right) = true) ∧
      (after i on).dp.queue = [.wheelSpeed .right] ∧ sentToken (after i on) = some (.wheelSpeed .left) :=
  ⟨by decide, by decide, (fun _ _ h => nomatch h), by decide +kernel, by decide +kernel, exec_after (by decide +kernel),
    by unfold HeldChanged; decide +kernel, by decide +kernel, by decide +kernel, by decide +kernel⟩

/-- A BLADE-START with requests above and below the maximum, the blades of `fitted`: the SPEED tokens follow the START tokens (R43, R152). -/
theorem test_bladeStart_speeds :
    let u := after (.bladeStart req []) (mowing.setEnv { mowing.env with req := { mowing.env.req with blades := ⟨4000, 0, 10⟩ } })
    u.env.held.blades = ⟨min 4000 (fitted.driveOf (.blade .bladeA)).maximum, 0, 10⟩ ∧
      Token.bladeSpeed .bladeA ∈ u.dp.queue ∧ Token.bladeSpeed .bladeB ∉ u.dp.queue ∧ Token.bladeSpeed .bladeC ∈ u.dp.queue := by
  decide +kernel

theorem witness_SteeringTurnsTowardTheTarget : builtinHome.base .track ≤ 1000 ∧
    (builtinHome.sense.val * ((800 : Int) - 16 * 0)).natAbs ≤ 16 * builtinHome.window ∧
    16 * builtinHome.window < (builtinHome.sense.val * ((801 : Int) - 16 * 0)).natAbs := by decide

/-- A power sample with a dock voltage above or below the dock detect voltage. -/
def dockSample (mv : Nat) : PowerSample := ⟨50, 0, mv, 0, 20, false⟩

/-- FOLLOW in CONTACT with a confirm count. -/
def contacting (n : Nat) : State :=
  withStack { idleStack with mow := some ⟨0⟩, home := some (.follow { followRec with phase := .contact, confirm := n }) } on

theorem witness_PowerSamplesConfirmAndWatchTheDock :
    (docked.act.stack.docked? = some dockedRec ∧ on.act.stack.docked? = none ∧ on.top ≠ .follow) ∧
    (∀ p ∈ [Phase.seek, .track, .approach, .contact], (followIn p 6 none).top = .follow) ∧
    (∀ n ∈ [0, 1, 2], (contacting n).top = .follow ∧
      (contacting n).act.stack.follow? = some { followRec with phase := .contact, confirm := n }) ∧
    (on.tables.home.dockMv ≤ (dockSample 20000).dockMv ∧ (dockSample 19999).dockMv < on.tables.home.dockMv) ∧
    ((contacting 2).home.reported = false ∧ NothingWaits (contacting 2) ∧ on.tables.home.dockConfirm ≤ 2 + 1 ∧
      1 + 1 < on.tables.home.dockConfirm) ∧
    ((followIn .approach 6 none).act.stack.follow? = some { followRec with phase := .approach, loop := 6 } ∧
      1 < (followIn .approach 6 none).tables.home.dockConfirm) := by
  unfold NothingWaits; decide +kernel

/-- An escape that runs in a given step with a given chain count. -/
def runningEscape (man step : Fin 8) (chain : Nat) : State :=
  (withStack { idleStack with esc := some { escRec with man := man, step := step, chain := chain } } on).setExe
    ⟨some ⟨0, .running⟩, some ⟨800, 0⟩, none⟩

/-- FOLLOW at a travelled distance. -/
def travelling (mm : Nat) : State := withStack { idleStack with home := some (.follow { followRec with travelled := mm }) } on

theorem witness_ProgressEndsStepsAndLimitsTheFollow :
    (∀ r, on.running? = some r → (on.tables.step r.man r.step).kind ≠ .dist) ∧
    (∀ i ∈ [(0 : Fin 8), 1], (runningEscape 0 i 0).running? = some { escRec with step := i }) ∧
    ((fitted.step 0 0).kind = .dist ∧ 0 + (499 : Int).natAbs < 2 * (fitted.step 0 0).amount ∧
      2 * (fitted.step 0 0).amount ≤ 0 + (-500 : Int).natAbs ∧ (0 : Fin 8).val + 1 < fitted.counts[(0 : Fin 8)]) ∧
    ((fitted.step 0 1).kind = .turn ∧ fitted.counts[(0 : Fin 8)] ≤ (1 : Fin 8).val + 1 ∧ (fitted.step 0 1).amount = 900 ∧
      (runningEscape 0 1 0).exe.baseline = none) ∧
    ((30 : Int) = (20 % 3600 : Nat) - (3590 : Nat) + 3600 ∧ (-1800 : Int) ≤ 30 ∧ (30 : Int) ≤ 1799 ∧ 0 + (30 : Int).natAbs < 900 ∧
      (-900 : Int) = (2700 : Nat) - (3600 : Nat) ∧ 900 ≤ 0 + (-900 : Int).natAbs) ∧
    (on.top ≠ .follow ∧ (travelling 400000).top = .follow ∧ (travelling 400000).tables.home.maxFollow * 1000 = 400000 ∧
      (2 * 400000 + 0 + (1 : Int).natAbs) / 2 ≤ 400000 ∧ 400000 < (2 * 400000 + 0 + (-2 : Int).natAbs) / 2 ∧
      NothingWaits (travelling 400000)) := by
  unfold NothingWaits
  refine ⟨?_, by decide +kernel⟩
  intro r h
  cases (show on.running? = none by decide +kernel) ▸ h

/-- An escape over MOW in a given state of its chain. -/
def chained (n : Nat) : State := withStack { idleStack with mow := some ⟨0⟩, esc := some { escRec with chain := n } } on

theorem nothingWaits_quiet : ∀ s ∈ [on, mowing, following, docked, halted, chained 0, chained 2], NothingWaits s := by
  unfold NothingWaits; decide +kernel

theorem witness_ResponsesActByTheTop :
    (∀ s ∈ [on, mowing, following, docked, halted, chained 0, chained 2], NothingWaits s) ∧
    (on.tables.hazard[(7 : Fin 16)].response = .slow ∧ on.tables.hazard[(9 : Fin 16)].response = .halt ∧
      on.tables.hazard[(3 : Fin 16)].response = .escape ∧ on.tables.counts[on.tables.hazard[(3 : Fin 16)].manoeuvre] ≠ 0 ∧
      on.tables.hazard[(14 : Fin 16)].response = .ret) ∧
    (halted.act.stack.halt = some haltRec ∧ mowing.act.stack.halt = none) ∧
    (mowing.top = .mow ∧ following.top = .follow ∧ on.top = .idle ∧ docked.top = .docked ∧ halted.top = .halt ∧
      (chained 0).top = .escape ∧ (∀ s ∈ [on, mowing, following, docked, halted, chained 0, chained 2], s.exe.held = none)) ∧
    ((on.tables.step 0 0).mask.getLsbD 3 = false ∧ (on.tables.step 0 0).mask.getLsbD 5 = true ∧
      on.tables.hazard[(5 : Fin 16)].response = .escape ∧ 0 + 1 < on.tables.home.chainLimit ∧ on.tables.home.chainLimit ≤ 2 + 1) ∧
    (docked.act.stack.home ≠ none ∧ mowing.act.stack.home = none ∧ (chained 0).act.stack.mow ≠ none ∧
      halted.act.stack.mow = none) :=
  ⟨nothingWaits_quiet, by decide +kernel, by decide +kernel, by decide +kernel, by decide +kernel, by decide +kernel⟩

/-- A state in which a return is pending. -/
def returning (s : State) : State := s.setAct { s.act with pendingReturn := true }

/-- Source 5 owes its response, RAISED or no longer. -/
def owing (st : SrcState) (s : State) : State := withSource 5 { freshSource with cond := st = .raised, state := st, owed := true } s

/-- An order in the slot. -/
def deferring (o : Order) (s : State) : State := s.setGate ⟨none, some ⟨o, 0, 1, 0, 0⟩⟩

theorem witness_TopChangesTakeUpWhatWaits :
    (∀ s ∈ [on, mowing, following, docked, halted, chained 0], (returning s).act.pendingReturn = true ∧
      (owing .raised s).haz.sources[(5 : Fin 16)].owed = true ∧ (owing .raised s).haz.sources[(5 : Fin 16)].state = .raised ∧
      (owing .raised s).tables.counts[(owing .raised s).tables.hazard[(5 : Fin 16)].manoeuvre] ≠ 0) ∧
    (owing .quiet on).haz.sources[(5 : Fin 16)].state ≠ .raised ∧
    (on.top = .idle ∧ mowing.top = .mow ∧ following.top = .follow ∧ docked.top = .docked ∧ halted.top = .halt ∧
      (chained 0).top = .escape ∧ (chained 0).act.stack.esc = some escRec ∧ on.act.pendingReturn = false) ∧
    (Order.row (.brake 0)).val < 6 ∧ 6 ≤ (Order.row .resume).val ∧ on.gate.deferred = none ∧
    (deferring (.brake 0) on).gate.deferred = some ⟨.brake 0, 0, 1, 0, 0⟩ ∧
    (∀ x ∈ [(⟨false, 3, .take⟩ : GateCell), ⟨true, 0, .take⟩, ⟨true, 1, .refuse⟩, ⟨true, 1, .defer⟩, ⟨true, 1, .take⟩],
      (withCell 10 .idle x on).tables.cell 10 .idle = x ∧ (withCell 5 .idle x on).tables.cell 5 .idle = x ∧
      (deferring .resume (withCell 10 .idle x on)).gate.deferred = some ⟨.resume, 0, 1, 0, 0⟩) ∧
    (applyOrder .resume (Ev.start on)).toOption = none ∧
    ((applyOrder .pause (Ev.start on)).toOption.map Ev.topChanged) = some true := by decide +kernel

/-- R54: an escape ends over MOW, the pending return passes through FOLLOW, and an owed escape is the final top: with an ESCAPE cap of 0 no
wheel speed is held in between and no token joins. -/
theorem test_passing_top_is_not_handed_over :
    let s := (chained 0).setTables { fitted with home := { fitted.home with capEscape := 0 } }
    let s1 := returning (owing .raised (s.setAct { s.act with bladeEnable := true }))
    let s2 := s1.setEnv { s1.env with caps := { s1.env.caps with activity := 0 }, k := 0, req := { noValues with left := 500, right := 500 } }
    let t := after .escapeCompletionReport (s2.setReports [.completion 0])
    t.top = .escape ∧ t.act.stack.home.isSome ∧ t.env.k = 0 ∧ t.dp.queue = [] ∧ t.dp.cycle = .idle := by decide +kernel

theorem witness_RefusalRecordKeepsTheFirst : on.gate.refusal = none ∧
    (enterRefusal .rank 5 1 0 on).gate.refusal = some ⟨.rank, 5, 1, 0, 0⟩ := by decide +kernel

/-- The intake table's first entry mirrors. -/
def mirroring (a : IntakeAction) : State := on.setTables { fitted with
  intake := fitted.intake.setIfInBounds 0 ⟨true, 0, 0, 7, a⟩ }

/-- The WN610 drives DP, `node` being the one a raced reply may come from. -/
def sendingRaced (node : Option Byte) : State := on.setDp { on.dp with cycle := .sending ⟨.wheelSpeed .right, 0x11, []⟩, raced := node }

/-- DP waits for an address that no mapped drive holds. -/
def waitingFor (node : Byte) : State := on.setDp { on.dp with cycle := .awaitReply ⟨.wheelSpeed .left, node, []⟩, replyTimer := some 20 }

theorem witness_FramesThatNoBlockTakesIn :
    ((Instr.damagedFrame .sp [⟨0, true⟩]).wellFormed = true ∧ on.isReady = true ∧
      (Instr.undefinedClassFrame .cp 10 req []).wellFormed = true ∧ (Instr.undefinedClassFrame .dp 15 req []).wellFormed = true) ∧
    (Instr.frameWithoutUser .sp 5 req []).wellFormed = true ∧
      (Instr.frameWithoutUser .cp 9 req []).wellFormed = true ∧ receives .sp on = true ∧ receives .cp on = true ∧
      on.tables.intakeAction .sp (5#4 ++ req.node) = some .use ∧
      (mirroring .mirror).tables.intakeAction .sp (5#4 ++ req.node) = some .mirror ∧
      (mirroring .useMirror).tables.intakeAction .sp (5#4 ++ req.node) = some .useMirror ∧
      (mirroring .mirror).isReady = true ∧ receives .sp (mirroring .mirror) = true := by decide +kernel

/-- What an acceptance on CP finds: LINK-SILENT false, and RAISED with a hold time of 0. -/
theorem witness_FramesThatNoBlockTakesIn_acceptance :
    let s := withSource srcLinkSilent { freshSource with cond := true, state := .raised } on
    on.haz.sources[srcLinkSilent].cond = false ∧ s.haz.sources[srcLinkSilent].cond = true ∧ s.tables.hazard[srcLinkSilent].enabled = true ∧
      s.haz.sources[srcLinkSilent].state = .raised ∧ s.tables.hazard[srcLinkSilent].hold = 0 := by decide +kernel

/-- Frames the port does not receive or the intake table turns away. -/
theorem witness_FramesThatNoBlockTakesIn_turned_away :
    ((Instr.driveStatus (hd 0 0x10 0) []).frame? = some (.dp, ⟨6, hd 0 0x10 0, []⟩) ∧ receives .dp (sendingRaced none) = false ∧
      (sendingRaced none).isReady = true ∧ (sendingRaced (some 0x10)).dp.raced = some 0x10 ∧
      (Instr.ping (hd 1 0x05 0) [7]).frame? = some (.cp, ⟨7, hd 1 0x05 0, [1, 7]⟩) ∧
      (Instr.coilSample (hd 0 0x30 0) []).frame? = some (.sp, ⟨0, hd 0 0x30 0, []⟩) ∧
      (mirroring .mirror).tables.intakeAction .sp (0#4 ++ 0x30#8) = some .mirror ∧
      (mirroring .discard).tables.intakeAction .sp (0#4 ++ 0x30#8) = some .discard ∧ (mirroring .discard).isReady = true ∧
      (Instr.brake req [0]).frame? = some (.cp, ⟨5, req, [6, 0]⟩) ∧
      (mirroring .mirror).tables.intakeAction .cp (5#4 ++ req.node) = some .mirror ∧
      ((mirroring .mirror).setDp (sendingRaced (some 0x10)).dp).tables.intakeAction .dp (6#4 ++ 0x10#8) = some .mirror) := by decide +kernel

/-- Four replies wait: a request finds no place, and its discard leaves the liveness timer restarted (R186). -/
theorem witness_FramesThatNoBlockTakesIn_full :
    let full := on.setPort { on.port with replies := List.replicate 4 ⟨1, 0, .done, 0, 0, 0, [[]]⟩ }
    (Instr.ping req [7]).frame? = some (.cp, ⟨7, req, [1, 7]⟩) ∧ req.node = 0x01#8 ∧ full.isReady = true ∧ 4 ≤ placesUsed full := by
  decide +kernel

/-- Frames their user discards. -/
theorem witness_FramesThatNoBlockTakesIn_discarded :
    (SpTaken 0 (hd 0 0x77 0) on ∧ on.tables.coilAt 0x77 = none ∧ SpTaken 1 (hd 0 0x77 0) on ∧ SpTaken 2 (hd 0 0x77 0) on ∧
      SpTaken 3 (hd 0 0x77 0) on ∧ SpTaken 4 (hd 0 0x77 0) on ∧ on.tables.sensor.incline.node ≠ 0x77 ∧
      on.tables.sensor.contact.node ≠ 0x77 ∧ on.tables.sensor.power.node ≠ 0x77 ∧ on.tables.sensor.rain.node ≠ 0x77) ∧
    Taken .dp 6 (hd 0 0x77 0) (waitingFor 0x77) ∧ receives .dp (waitingFor 0x77) = true ∧ (waitingFor 0x77).tables.driveAt 0x77 = none ∧
      (waitingFor 0x77).dp.cycle = .awaitReply ⟨.wheelSpeed .left, 0x77, []⟩ ∧ Taken .dp 6 (hd 0 0x77 0) (waitingFor 0x10) ∧
      (0x10 : Byte) ≠ 0x77 ∧ Taken .dp 6 (hd 0 0x77 0) (sendingRaced (some 0x77)) := by
  unfold SpTaken Taken; decide +kernel

/-- A coil's last sequence byte. -/
def withSeq (c : Fin 4) (q : Byte) (s : State) : State := setIntake c ⟨some q, 0, false⟩ s

theorem witness_CoilSampleIsDecoded :
    SpTaken 0 (hd 0 0x30 0) on ∧ on.tables.coilAt 0x30 = some 0 ∧ (List.replicate 16 (0 : Byte)).length = 16 ∧
      on.dec.intakes[(0 : Fin 4)].lastSeq = none ∧ (withSeq 0 5 on).dec.intakes[(0 : Fin 4)].lastSeq = some 5 ∧
      SpTaken 0 (hd 0 0x30 0) (withSeq 0 5 on) ∧ (withSeq 0 5 on).tables.coilAt 0x30 = some 0 ∧
      SpTaken 0 (hd 0 0x30 0) (mirroring .useMirror) ∧ nodeSilent on.haz (coilNode 0) = false := by
  unfold SpTaken Taken; decide +kernel

/-- A third frame in a row that agrees locks loop 0. -/
theorem witness_CoilSampleLocksALoop :
    let s := on.setDec (on.dec.setTracker 0 { freshTracker true with run := 2 })
    let t := after (.coilSample (hd 0 0x30 0) (1 :: workedSamples.map (BitVec.ofInt 8))) s
    s.dec.trackers[(0 : Fin 8)].state = .search ∧ t.dec.trackers[(0 : Fin 8)].state = .locked := by decide +kernel

theorem witness_InclineSampleFormsTilt :
    SpTaken 1 (hd 0 0x38 0) on ∧ on.tables.sensor.incline.present = true ∧ on.tables.sensor.incline.node = 0x38#8 ∧
      on.tables.sensor.tilt ≤ max (s16 0x5E 0x01).natAbs 0 ∧
      max (s16 0x49 0x01).natAbs 0 + 20 < on.tables.sensor.tilt ∧
      (max (s16 0x4A 0x01).natAbs 0 < on.tables.sensor.tilt ∧ on.tables.sensor.tilt ≤ max (s16 0x4A 0x01).natAbs 0 + 20) ∧
      SpTaken 1 (hd 0 0x38 0) (mirroring .useMirror) ∧ nodeSilent on.haz 4 = false := by
  unfold SpTaken Taken; decide +kernel

theorem witness_ContactAndRainSamplesFormTheirConditions :
    (SpTaken 2 (hd 0 0x39 0) on ∧ on.tables.sensor.contact.present = true ∧ on.tables.sensor.contact.node = 0x39#8) ∧
      (SpTaken 4 (hd 0 0x3B 0) on ∧ on.tables.sensor.rain.present = true ∧ on.tables.sensor.rain.node = 0x3B#8) ∧
      on.tables.sensor.rainLevel = 120 ∧ SpTaken 2 (hd 0 0x39 0) (mirroring .useMirror) ∧
      SpTaken 4 (hd 0 0x3B 0) (mirroring .useMirror) := by
  unfold SpTaken Taken; decide +kernel

theorem witness_PowerSampleFormsBatteryLow :
    SpTaken 3 (hd 0 0x3A 0) on ∧ on.tables.sensor.power.present = true ∧ on.tables.sensor.power.node = 0x3A#8 ∧
      SpTaken 3 (hd 0 0x3A 0) (mirroring .useMirror) ∧ nodeSilent on.haz 6 = false ∧
      on.haz.sources[srcBatteryLow].cond = (decide (min 100 (50 : Byte).toNat < on.tables.sensor.returnLevel) &&
        on.act.stack.docked?.isNone) := by
  unfold SpTaken Taken; decide +kernel

/-- A cycle that waits for the reply of a node. -/
def waiting (node : Byte) : State := on.setDp { on.dp with
  cycle := .awaitReply ⟨.wheelSpeed .left, node, []⟩, replyTimer := some 10 }

/-- The four drive conditions as the master forms them from these records. -/
def formed (s : State) : Bool × Bool × Bool × Bool :=
  let u := formDriveConditions s
  (u.dp.stallLeft, u.dp.stallRight, u.dp.overload, u.dp.fault)

/-- A changed condition each: two stalled wheels, an overloaded blade, a FAULTED deck; and the source of the last one. -/
theorem witness_DriveStatusIsTakenIn_conditions :
    (on.dp.stallLeft = false ∧ on.dp.stallRight = false ∧ on.dp.overload = false ∧ on.dp.fault = false) ∧
    formed on = (false, false, false, false) ∧
    formed (setDriveRec (.wheel .left) { freshDriveRec with stallRun := 4 } on) = (true, false, false, false) ∧
    formed (setDriveRec (.wheel .right) { freshDriveRec with stallRun := 4 } on) = (false, true, false, false) ∧
    formed (setDriveRec (.blade .bladeB) { freshDriveRec with overRun := 4 } on) = (false, false, true, false) ∧
    formed (setDriveRec .deck { freshDriveRec with state := .faulted } on) = (false, false, false, true) ∧
    (formDriveConditions (setDriveRec .deck { freshDriveRec with state := .faulted } on)).haz.sources[srcDriveFault].cond = true := by
  decide +kernel

theorem witness_DriveStatusIsTakenIn :
    let raced := on.setDp { on.dp with cycle := .sending ⟨.wheelSpeed .right, 0x11, []⟩, raced := some 0x10 }
    (Taken .dp 6 (hd 0 0x10 0) (waiting 0x10) ∧ receives .dp (waiting 0x10) = true) ∧
    (Taken .dp 6 (hd 0 0x10 0) raced ∧ raced.dp.raced = some 0x10 ∧ receives .dp raced = false ∧
      raced.tables.driveAt 0x10 = some (.wheel .left)) ∧
    Taken .dp 6 (hd 0 0x10 0) (mirroring .useMirror) ∧
    (waiting 0x10).tables.driveAt 0x10 = some (.wheel .left) ∧ (waiting 0x10).tables.driveAt 0x12 = some (.blade .bladeA) ∧
      (waiting 0x10).tables.driveAt 0x15 = some .deck ∧
      (waiting 0x10).dp.cycle = .awaitReply ⟨.wheelSpeed .left, 0x10, []⟩ ∧
      (waiting 0x11).tables.driveAt 0x10 = some (.wheel .left) := by
  unfold Taken; decide +kernel

theorem witness_WheelSpeedSetsTheRequestedPair :
    CpTaken 5 (hd 2 0x01 0) on ∧ CellTakes 0 (hd 2 0x01 0) on ∧ (hd 2 0x01 0).epoch = on.act.epoch ∧
      on.tables.mapped (.wheel .left) = true ∧ on.tables.mapped (.wheel .right) = true := by
  unfold CpTaken Taken CellTakes; decide +kernel

theorem witness_BladeSpeedAndDeckHeightSetTheirRequests :
    CpTaken 5 req mowing ∧ req.epoch = mowing.act.epoch ∧ CellTakes 1 req mowing ∧ CellTakes 4 req mowing ∧
      (∀ b, bladeOf 0 = some b → mowing.tables.mapped (.blade b) = true) ∧ bladeOf 3 = none ∧
      mowing.tables.anyBlade = true ∧ mowing.tables.mapped .deck = true := by
  refine ⟨by unfold CpTaken Taken; decide +kernel, by decide +kernel, by unfold CellTakes; decide +kernel,
    by unfold CellTakes; decide +kernel, ?_, rfl, by decide +kernel, by decide +kernel⟩
  rintro b h
  cases h
  decide +kernel

/-- Mowing while LIFT is HELD. -/
def lifted : State := withSource srcLift { freshSource with state := .held, hold := some 1000 } mowing

theorem witness_BladeStartAndStopSwitchTheBlades :
    (CpTaken 5 req mowing ∧ req.epoch = mowing.act.epoch ∧ CellTakes 2 req mowing ∧ mowing.tables.anyBlade = true ∧
      bladesClear mowing = true) ∧
    (CpTaken 5 req lifted ∧ req.epoch = lifted.act.epoch ∧ CellTakes 2 req lifted ∧ lifted.tables.anyBlade = true ∧
      bladesClear lifted = false) ∧
    (CpTaken 5 req stopped ∧ (hd 1 0x01 1).epoch = stopped.act.epoch ∧ CellTakes 3 req stopped ∧
      stopped.env.held.blades = ⟨0, 0, 0⟩) ∧ mowing.act.bladeEnable = false := by
  unfold CpTaken Taken CellTakes; decide +kernel

theorem witness_BrakeStopsTheNamedDrive :
    (CpTaken 5 req on ∧ CellTakes 5 req on ∧ req.epoch = on.act.epoch ∧ driveOfCode 0 = some (.wheel .left) ∧
      on.tables.mapped (.wheel .left) = true ∧ on.top = .idle) ∧
    (driveOfCode 2 = some (.blade .bladeA) ∧ on.tables.mapped (.blade .bladeA) = true) ∧
    (driveOfCode 5 = some .deck ∧ on.tables.mapped .deck = true) ∧
    CpTaken 5 req halted ∧ CellTakes 5 req halted ∧ halted.top ≠ .idle ∧ halted.top ≠ .mow := by
  unfold CpTaken Taken CellTakes; decide +kernel

/-- The BRAKE cell under IDLE replaced. -/
def brakeCell (c : GateCell) : State := withCell 5 .idle c on

theorem witness_GateChecksDriveCommandsInOrder :
    (Instr.frameWithoutUser .cp 5 req []).wellFormed = true ∧
      (Instr.frameWithoutUser .cp 5 req [9]).frame? = some (.cp, ⟨5, req, [9]⟩) ∧ 6 < (9 : Byte).toNat ∧
      (Instr.frameWithoutUser .cp 5 req [0]).frame? = some (.cp, ⟨5, req, [0]⟩) ∧
      (Instr.brake req []).frame? = some (.cp, ⟨5, req, [6]⟩) ∧ (6 : Byte).toNat ≤ 6 ∧ ([] : List Byte).length ≠ 1 ∧
      (Instr.brake req [0]).frame? = some (.cp, ⟨5, req, [6, 0]⟩) ∧ parseDrive 6 [0] = some (some (.brake 0)) ∧
      CpTaken 5 req on ∧ ((brakeCell ⟨false, 3, .take⟩).tables.cell 5 .idle).present = false ∧
      ((brakeCell ⟨true, 0, .take⟩).tables.cell 5 .idle).rankLimit < effectiveRank on.tables 1 ∧
      (hd 1 0x01 9).epoch ≠ on.act.epoch ∧ ((brakeCell ⟨true, 1, .refuse⟩).tables.cell 5 .idle).disp = .refuse ∧
      ((brakeCell ⟨true, 1, .defer⟩).tables.cell 5 .idle).disp = .defer ∧ on.gate.deferred = none ∧
      CpTaken 5 req (brakeCell ⟨true, 1, .defer⟩) ∧ (brakeCell ⟨true, 1, .defer⟩).top = .idle := by
  unfold CpTaken Taken; decide +kernel

/-- READY with no drive mapped. -/
def bare : State := ready

/-- Mowing with no drive mapped. -/
def bareMowing : State := withStack { idleStack with mow := some ⟨0⟩ } ready

theorem witness_KindConditionsRefuseDriveCommands :
    (∀ s ∈ [bare, bareMowing], CpTaken 5 req s ∧ req.epoch = s.act.epoch ∧ s.tables.mapped (.wheel .left) = false ∧
      s.tables.mapped .deck = false ∧ s.tables.mapped (.blade .bladeA) = false ∧ s.tables.anyBlade = false) ∧
    (CellTakes 0 req bare ∧ CellTakes 4 req bare ∧ CellTakes 5 req bare ∧ CellTakes 1 req bareMowing ∧ CellTakes 2 req bareMowing) ∧
    (bladeOf (0 : Byte).toNat = some .bladeA ∧ 3 < (4 : Byte).toNat ∧ 5 < (6 : Byte).toNat ∧
      driveOfCode (5 : Byte).toNat = some .deck) := by
  unfold CpTaken Taken CellTakes; decide +kernel

theorem requested_on : Requested req on := by unfold Requested; decide +kernel

theorem witness_PingUndefinedAndReadTableRequests :
    (Requested req on ∧ 13 < (14 : Byte).toNat ∧ 7 < (8 : Byte).toNat) ∧ ([] : List Byte).length ≤ 19 ∧
    TableId.named 11 = some .sensor ∧ TableId.named 12 = none ∧ TableId.sensor.entries = 1 ∧
    ∀ args ∈ [([1] : List Byte), [1, 2, 3], List.replicate 21 0], args.length ≤ 21 ∧ args ≠ [] ∧ args.length ≠ 2 :=
  ⟨⟨requested_on, by decide, by decide⟩, by decide, by decide, by decide, by decide, by decide⟩

/-- R143: a PAUSE with a byte too many is refused with UNDEFINED at offset 3. -/
theorem test_pause_length : ((after (.pause req [5, 6]) mowing).port.replies.map fun r => (r.tag, r.code, r.offset)) = [(5, .undefined, 3)] ∧
    (after (.pause req [5, 6]) mowing).act = mowing.act := by decide +kernel

/-- The request of `loopWrite`. -/
def loopReq : WriteReq := ⟨.loop, 1, 1, maskOf 0x21 0x01 0 0, [1, 150, 0, 12]⟩

theorem witness_WriteTableIsTakenWholeOrNotAtAll :
    Requested req on ∧ TableId.named 2 = some .loop ∧ loopReq.values.length ≤ 15 ∧ loopReq.mixed = false ∧
      loopReq.badMask = none ∧ loopReq.values.length = loopReq.count * loopReq.width ∧
      effectiveRank on.tables 1 = 1 ∧ effectiveRank on.tables 2 ≠ 1 ∧ on.mgmt.op = none ∧ on.top.admitsWrites = true ∧
      mowing.top.admitsWrites = false ∧ loopReq.first + loopReq.count ≤ TableId.loop.entries ∧
      ∃ rows, loopReq.rows on.tables (chainFloor on) 0 1 = .ok rows ∧ loopReq.conflict (writeRows .loop rows on.tables) = none :=
  ⟨requested_on, by decide, by decide, by decide, by decide +kernel, by decide +kernel, by decide +kernel,
    by decide +kernel, by decide +kernel, by decide +kernel, by decide +kernel, by decide +kernel,
    ⟨[⟨1, [1, 0, 1, 0x18EB, 0, 150, 200, 3, 12, 32, 4, 1000], [1, 0, 1, 0x18EB, 0, 150, 149, 3, 8, 32, 4, 1000]⟩],
      by decide +kernel, by decide +kernel⟩⟩

/-- The form of a WRITE-TABLE in each way it can fail, before the clauses of `loopWrite`. -/
theorem witness_WriteTableIsTakenWholeOrNotAtAll_form :
    Requested req on ∧ ([2, 1, 1, 1, 0, 0] : List Byte).length < 7 ∧ TableId.named 12 = none ∧
    (TableId.named 8 = some .manoeuvre ∧ (7 : Byte).toNat < 8 ∧ 8 < (7 : Byte).toNat + (2 : Byte).toNat) ∧
    maskOf 0 0 0 0 = 0 ∧
    (loopReq.shape.length ≤ (12 : Fin 32).val ∧ ({ loopReq with mask := maskOf 1 0x10 0 0 } : WriteReq).selects 12 = true ∧
      ∀ k : Fin 32, k < 12 → ({ loopReq with mask := maskOf 1 0x10 0 0 } : WriteReq).selects k.val = true → k.val < loopReq.shape.length) ∧
    (loopReq.mask ≠ 0 ∧ (∀ n : Fin 32, loopReq.selects n.val = true → n.val < loopReq.shape.length) ∧
      ([1, 150, 0] : List Byte).length ≠ 1 * loopReq.width) :=
  ⟨requested_on, by decide +kernel⟩

/-- The tables of `on` with one drive, one source, one coil or one sensor node taken out. -/
def without (f : Tables → Tables) : State := on.setTables (f fitted)

theorem witness_WrittenEntriesActOnTheBlocks :
    let noCoil := without fun t => { t with coil := t.coil.setIfInBounds 0 (builtinCoil 0) }
    let off := without fun t => { t with hazard := t.hazard.setIfInBounds 7 { builtinHazard 7 with enabled := false } }
    let raised := withSource 7 { freshSource with cond := true } on
    let noDrive := without fun t => { t with drive := t.drive.setIfInBounds 0 (builtinDrive 0) }
    let bareSensors := without fun t => { t with sensor := builtinSensor }
    (fitted.coil[(0 : Fin 4)].present = true ∧ noCoil.tables.coil[(0 : Fin 4)].present = false ∧
      noCoil.tables.loop[(0 : Fin 8)].enabled = true ∧ noCoil.tables.loop[(0 : Fin 8)].refCoil = 0) ∧
    (off.tables.hazard[(7 : Fin 16)].enabled = false ∧ fitted.hazard[(7 : Fin 16)].enabled = true ∧
      raised.haz.sources[(7 : Fin 16)].cond = true ∧ raised.srcState 7 = .quiet) ∧
    ((locked 6 0).dec.trackers[(6 : Fin 8)].state = .locked ∧ (followIn .track 6 none).top = .follow ∧
      (followIn .track 6 none).act.stack.follow? = some { followRec with phase := .track, loop := 6 }) ∧
    (on.tables.mapped (.wheel .left) = true ∧ noDrive.tables.mapped (.wheel .left) = false) ∧
    (fitted.sensor.power.present = true ∧ bareSensors.tables.sensor.power.present = false ∧
      bareSensors.tables.sensor.rain.present = false ∧ bareSensors.tables.sensor.incline.present = false ∧
      bareSensors.tables.sensor.contact.present = false ∧ NothingWaits bareSensors) := by
  unfold NothingWaits; decide +kernel

theorem witness_StatusReadsChangeNothing : Requested req on ∧ 8 ≤ (8 : Byte).toNat ∧ (7 : Byte).toNat < 8 ∧ 4 ≤ (4 : Byte).toNat :=
  ⟨requested_on, by decide, by decide, by decide⟩

theorem witness_StartMowFollowsTheStack :
    (Requested req on ∧ CellTakes 6 req on ∧ NothingWaits on ∧ on.top = .idle) ∧
    (Requested req mowing ∧ CellTakes 6 req mowing ∧ NothingWaits mowing ∧ mowing.act.stack.mow ≠ none) ∧
    (Requested req docked ∧ CellTakes 6 req docked ∧ NothingWaits docked ∧ docked.top = .docked ∧
      docked.act.stack.mow = none ∧ docked.act.stack.docked? = some dockedRec) ∧
    Requested req halted ∧ CellTakes 6 req halted ∧ NothingWaits halted ∧ halted.act.stack.mow = none ∧
      halted.top ≠ .idle ∧ halted.top ≠ .docked := by
  unfold Requested CellTakes NothingWaits; decide +kernel

/-- DOCKED over MOW, or alone, with a last charge percent and a ready flag. -/
def charged (mow : Option MowRec) (percent : Nat) (ready : Bool) : State :=
  (withStack { idleStack with mow := mow, home := some (.docked dockedRec) } on).setHome
    { freshHoming with lastPercent := some percent, ready := ready }

/-- R133, R134: at the resume level of 90 an inserted MOW sets the ready flag and CHARGE is pending, below it neither; a MOW taken away clears it. -/
theorem test_ready_flag_follows_mow :
    (let t := after (.startMow req [5]) (charged none 90 false); t.home.ready = true ∧ t.haz.pending.getLsbD 19 = true) ∧
    (let t := after (.startMow req [5]) (charged none 89 false); t.home.ready = false ∧ t.haz.pending.getLsbD 19 = false) ∧
    (let t := after (.goHome req [5, 1]) (charged (some ⟨0⟩) 90 true);
      t.home.ready = false ∧ t.haz.pending.getLsbD 19 = true ∧ t.haz.pending.getLsbD 16 = true) := by decide +kernel

theorem witness_GoHomePushesOrMergesFollow :
    (Requested req (charged (some ⟨0⟩) 90 true) ∧ CellTakes 7 req (charged (some ⟨0⟩) 90 true) ∧ NothingWaits (charged (some ⟨0⟩) 90 true) ∧
      (charged (some ⟨0⟩) 90 true).act.stack.docked? = some dockedRec ∧ (charged (some ⟨0⟩) 90 true).act.stack.mow ≠ none) ∧
    (Requested req mowing ∧ CellTakes 7 req mowing ∧ NothingWaits mowing ∧ mowing.top = .mow) ∧
    (Requested req following ∧ CellTakes 7 req following ∧ NothingWaits following ∧
      following.act.stack.follow? = some followRec) ∧
    (Requested req docked ∧ CellTakes 7 req docked ∧ NothingWaits docked ∧ docked.act.stack.docked? = some dockedRec) ∧
    Requested req halted ∧ CellTakes 7 req halted ∧ NothingWaits halted ∧ halted.act.stack.home = none ∧
      halted.top = .halt := by
  unfold Requested CellTakes NothingWaits; decide +kernel

theorem witness_EscapesStartAtStepZero :
    (Requested req docked ∧ NothingWaits docked ∧ (4 : Byte).toNat = (4 : Fin 8).val ∧ docked.exe.held = none ∧
      CellTakes 8 req docked ∧ docked.top = .docked ∧ docked.tables.counts[docked.tables.home.undock] ≠ 0 ∧
      docked.haz.kept.powerTaken = false) ∧
    (CellTakes 11 req mowing ∧ mowing.tables.counts[(4 : Fin 8)] ≠ 0 ∧ mowing.top ≠ .docked ∧ mowing.top ≠ .halt) ∧
    mowing.tables.counts[(5 : Fin 8)] = 0 ∧ CellTakes 11 req halted ∧ halted.top = .halt ∧ 8 ≤ (8 : Byte).toNat := by
  unfold Requested CellTakes NothingWaits; decide +kernel

/-- The HALT record of a pressed STOP. -/
def stopRec : HaltRec := ⟨1, CauseSet.none.add (.source srcStop)⟩

theorem witness_PauseAndResume :
    (Requested req mowing ∧ NothingWaits mowing ∧ CellTakes 9 req mowing ∧ mowing.act.stack.halt = none) ∧
    (Requested req halted ∧ NothingWaits halted ∧ CellTakes 9 req halted ∧ CellTakes 10 req halted ∧
      halted.act.stack.halt = some haltRec ∧ haltRec.causes.blocks halted.haz = false ∧ halted.act.bladeEnable = false) ∧
    (let s := withSource srcTrapped { freshSource with cond := true, state := .raised }
        (withStack { idleStack with halt := some ⟨0, CauseSet.none.add (.source srcTrapped)⟩ } on);
      Requested req s ∧ NothingWaits s ∧ CellTakes 10 req s ∧ (∀ r ∈ s.act.stack.halt, r.causes.blocks s.haz = false ∧
        r.causes.hasSource srcTrapped = true) ∧ s.act.bladeEnable = false) ∧
    Requested req stopped ∧ NothingWaits stopped ∧ CellTakes 10 req stopped ∧ stopped.act.stack.halt = some stopRec ∧
      stopRec.causes.blocks stopped.haz = true := by
  unfold Requested CellTakes NothingWaits; decide +kernel

/-- FOLLOW in TRACK under a HALT, the guide loop 1 LOCKED with a guide view. -/
def followHalted (c : HaltCause) (view : Nat) : State :=
  (withStack { idleStack with home := some (.follow { followRec with phase := .track, travelled := 7 }), halt := some ⟨0, CauseSet.none.add c⟩ }
    (locked on.tables.home.guide 0)).setHome { freshHoming with guideView := some view, remainder := 1 }

/-- The FOLLOW clause of RESUME: after NO-DOCK, and after a soft halt with the guide view at the capture strength and just below it. -/
theorem witness_PauseAndResume_follow :
    ∀ s ∈ [followHalted .noDock 0, followHalted .pause on.tables.home.capture, followHalted .pause (on.tables.home.capture - 1)],
      Requested req s ∧ NothingWaits s ∧ CellTakes 10 req s ∧
      (∀ r ∈ s.act.stack.halt, r.causes.blocks s.haz = false) ∧ s.act.bladeEnable = false ∧
      s.act.stack.follow? = some { followRec with phase := .track, travelled := 7 } ∧
      s.dec.trackers[s.tables.home.guide].state = .locked ∧ s.tables.home.capture = on.tables.home.capture := by
  unfold Requested CellTakes NothingWaits; decide +kernel

/-- R63: RESUME after NO-DOCK begins the FOLLOW anew; after PAUSE it goes on in TRACK with a strong guide view. -/
theorem test_resume_follow :
    (after (.resume req [5]) (followHalted .noDock 900)).act.stack.follow? = some { followRec with loop := on.tables.home.perimeter } ∧
    (after (.resume req [5]) (followHalted .pause 900)).act.stack.follow? =
      some { followRec with phase := .track, travelled := 7, loop := on.tables.home.guide } := by decide +kernel

/-- A cell of the RESUME row under IDLE replaced. -/
def resumeCell (c : GateCell) : State := withCell 10 .idle c on

theorem witness_GateChecksActivityRequestsInOrder :
    let c := fun x => (resumeCell x).tables.cell 10 .idle
    Requested req (resumeCell ⟨true, 1, .defer⟩) ∧ (c ⟨false, 3, .take⟩).present = false ∧
      (c ⟨true, 0, .take⟩).rankLimit < effectiveRank on.tables 1 ∧ (c ⟨true, 1, .refuse⟩).disp = .refuse ∧
      (c ⟨true, 1, .defer⟩).disp = .defer ∧ effectiveRank on.tables 1 ≤ (c ⟨true, 1, .defer⟩).rankLimit ∧
      (resumeCell ⟨true, 1, .defer⟩).gate.deferred = none ∧ (resumeCell ⟨true, 1, .defer⟩).top = .idle := by
  unfold Requested; decide +kernel

/-- A device with an operation in flight. -/
def busy (k : OpKind) : State := on.setMgmt { on.mgmt with op := some ⟨k, 5, 0⟩ }

theorem witness_StoresAndLoadsBeginAndStoresEnd :
    (Requested req on ∧ effectiveRank on.tables req.rank = 1 ∧ on.mgmt.op = none ∧ on.top.admitsWrites = true) ∧
    (Requested (hd 2 0x01 0) on ∧ effectiveRank on.tables 2 ≠ 1) ∧
    (Requested req (busy .store) ∧ (busy .store).mgmt.op ≠ none) ∧
    (Requested req mowing ∧ mowing.top.admitsWrites = false) ∧
    (busy .store).isReady = true ∧ (busy .store).mgmt.op = some ⟨.store, 5, 0⟩ := by
  unfold Requested; decide +kernel

/-- A load in flight while the top is MOW. -/
def loadingAway : State := withStack { idleStack with mow := some ⟨0⟩ } (busy .load)

theorem witness_LoadCompletesInOneOfFourWays :
    ((busy .load).isReady = true ∧ (busy .load).mgmt.op = some ⟨.load, 5, 0⟩ ∧ (busy .load).top.admitsWrites = true) ∧
    (loadingAway.isReady = true ∧ loadingAway.mgmt.op = some ⟨.load, 5, 0⟩ ∧ loadingAway.top.admitsWrites = false) ∧
    (checkImage (chainFloor (busy .load)) [] = none ∧ checkImage (chainFloor (busy .load)) fitted.image = some (fitted, false)) ∧
    checkImage (chainFloor loadingAway) fitted.image = some (fitted, false) :=
  ⟨by decide +kernel, by decide +kernel, ⟨by decide +kernel, (show chainFloor (busy .load) = 1 by decide +kernel) ▸ good_image⟩,
    (show chainFloor loadingAway = 1 by decide +kernel) ▸ good_image⟩

/-- Tables that a load brings: another loop enabled, source 3 disabled. -/
def loaded : Tables :=
  { fitted with hazard := fitted.hazard.setIfInBounds 3 { builtinHazard 3 with enabled := false } }

/-- Source 3 disabled, its condition true. -/
def unheard : State := withSource 3 { freshSource with cond := true } (on.setTables loaded)

theorem witness_LoadedTablesActOnTheBlocks :
    ((locked 6 0).dec.trackers[(6 : Fin 8)].state = .locked ∧ on.dec.n = on.env.n ∧ on.dec.wireLost = true) ∧
    (wireGone.dec.wireLost = false ∧ wireAtOnce.sensor.wireDelay = 0 ∧ fitted.sensor.wireDelay ≠ 0) ∧
    (fitted.mapped (.wheel .left) = true ∧ builtinTables.mapped (.wheel .left) = false ∧ fitted.mapped (.blade .bladeA) = true) ∧
    (on.tables.hazard[(3 : Fin 16)].enabled = true ∧ loaded.hazard[(3 : Fin 16)].enabled = false) ∧
    (unheard.tables.hazard[srcBumpLeft].enabled = false ∧ fitted.hazard[srcBumpLeft].enabled = true ∧
      unheard.haz.sources[srcBumpLeft].cond = true ∧ unheard.srcState srcBumpLeft = .quiet) ∧
    (on.top.admitsWrites = true ∧ (∀ i : Fin 16, on.haz.sources[i].cond = false) ∧ (∀ n : Fin 8, nodeSilent on.haz n = false) ∧
      ∀ d ∈ Drive.all, on.dp.recOf d = freshDriveRec) := by decide +kernel

/-- Each form of a RESTART: a load or a store in flight or none, STOP up or down, WIRE-LOST delayed or at once, a rank that is refused. -/
theorem witness_RestartBringsReadyAgain :
    (∀ s ∈ [busy .load, busy .store, on, after .stopPress on, on.setTables wireAtOnce],
      Requested req s ∧ effectiveRank s.tables req.rank = 1 ∧ FixedSources s.tables) ∧
    (effectiveRank on.tables 3 ≠ 1 ∧ (busy .load).mgmt.op = some ⟨.load, 5, 0⟩ ∧ on.mgmt.op = none) ∧
    ((after .stopPress on).pins.stopLow = true ∧ on.pins.stopLow = false ∧ on.pins.stopLatch = false ∧
      wireHalts wireAtOnce = true) := by
  unfold Requested FixedSources; decide +kernel

/-- Loop 0 fading. -/
def fadingLoop : State := on.setDec (on.dec.setTracker 0 { freshTracker true with state := .fading, fade := some 1 })

theorem witness_TimerExpiriesOfDecoderAndMonitor :
    let s := setNode 4 (some ⟨.fresh, some 60⟩) fadingLoop
    (s.isReady = true ∧ s.dec.trackers[(0 : Fin 8)].state = .fading ∧ s.dec.trackers[(0 : Fin 8)].fade = some 1 ∧
      s.haz.nodes[(4 : Fin 8)] = some ⟨.fresh, some 60⟩) ∧
    (let f := followIn .track 6 (some 600)
      let front := setNode 0 (some ⟨.fresh, some 60⟩) (f.setDec (f.dec.setTracker 0 { freshTracker true with state := .locked }))
      let power := setNode 6 (some ⟨.fresh, some 60⟩) (contacting 1)
      front.isReady = true ∧ front.haz.nodes[(0 : Fin 8)] = some ⟨.fresh, some 60⟩ ∧ front.tables.frontCoil = some 0 ∧ front.top = .follow ∧
      coilNode 0 = 0 ∧ (front.dec.cell 6 0).mark = .fresh ∧ front.tables.home.guide = 6 ∧ front.tables.loop[(0 : Fin 8)].enabled = true ∧
      front.tables.loop[(0 : Fin 8)].refCoil = 0 ∧ front.dec.trackers[(0 : Fin 8)].state = .locked ∧ power.isReady = true ∧
      power.haz.nodes[(6 : Fin 8)] = some ⟨.fresh, some 60⟩ ∧ power.top = .follow ∧
      power.act.stack.follow?.map FollowRec.phase = some .contact) ∧
    lifted.isReady = true ∧ lifted.srcState srcLift = .held ∧ lifted.haz.sources[srcLift].hold = some 1000 ∧
      lifted.haz.wireDelay = some 2000 ∧ lifted.port.liveness = some 300 := by decide +kernel

theorem witness_StepTimerEndsOrFailsTheStep :
    let running (m i : Fin 8) (c : Nat) : Prop := (runningEscape m i c).isReady = true ∧
      (runningEscape m i c).running? = some { escRec with man := m, step := i, chain := c } ∧
      (runningEscape m i c).exe.timer = some ⟨800, 0⟩
    running 3 0 0 ∧ (fitted.step 3 0).kind = .time ∧ (0 : Fin 8).val + 1 < fitted.counts[(3 : Fin 8)] ∧
      running 3 1 2 ∧ (fitted.step 3 1).kind ≠ .time ∧ fitted.home.chainLimit ≤ 2 + 1 ∧ running 3 1 1 ∧
      1 + 1 < fitted.home.chainLimit := by decide +kernel

/-- A one-step TIME manoeuvre. -/
theorem witness_StepTimerEndsTheManoeuvre :
    let t : Tables := { fitted with counts := fitted.counts.setIfInBounds 3 1 }
    (t.step 3 0).kind = .time ∧ t.counts[(3 : Fin 8)] ≤ (0 : Fin 8).val + 1 := by decide +kernel

theorem witness_ExecutorReportsReachTheStack :
    let s := fun r => escaping.setReports [r]
    (s (.completion 0)).isReady = true ∧ (s (.completion 0)).reports = .completion 0 :: [] ∧
      (s (.completion 0)).top = .escape ∧ (s (.completion 0)).act.stack.esc = some escRec ∧ escRec.entry = 0 ∧
      NothingWaits (s (.completion 0)) ∧ NothingWaits (s (.trap 0)) ∧ (s (.trap 0)).reports = .trap 0 :: [] ∧
      (s .stopStepStart).reports = .stopStepStart :: [] ∧ (s (.completion 1)).reports = .completion 1 :: [] ∧
      escRec.entry ≠ 1 := by
  unfold NothingWaits; decide +kernel

theorem witness_DrivePortTimersAndSends :
    let s := on.setDp { on.dp with cycle := .sending ⟨.wheelSpeed .left, 0x10, []⟩ }
    s.isReady = true ∧ s.dp.cycle = .sending ⟨.wheelSpeed .left, 0x10, []⟩ ∧
      (waiting 0x10).dp.cycle = .awaitReply ⟨.wheelSpeed .left, 0x10, []⟩ ∧ (waiting 0x10).dp.replyTimer = some 10 ∧
      (waiting 0x10).tables.driveAt 0x10 = some (.wheel .left) ∧ on.dp.refreshTimer = some 50 ∧
      (waitingFor 0x77).isReady = true ∧ (waitingFor 0x77).dp.cycle = .awaitReply ⟨.wheelSpeed .left, 0x77, []⟩ ∧
      (waitingFor 0x77).dp.replyTimer = some 20 ∧ (waitingFor 0x77).tables.driveAt 0x77 = none := by decide +kernel

/-- Two mirrors wait and no notice. -/
def mirrorsWait : State := (on.setHaz { on.haz with pending := 0 }).setPort { on.port with mirrors := [[1], [2]] }

theorem witness_ArbiterAndTokenOrder :
    (on.setPort { on.port with replies := [someReply] }).port.replies = someReply :: [] ∧
      someReply.chunks = [] :: [] ∧ on.live = true ∧ on.port.replies = [] ∧ on.mgmt.startup = .ready ∧
      on.haz.pending.getLsbD 16 = true ∧ (∀ j : Fin 20, j < 16 → on.haz.pending.getLsbD j.val = false) ∧
      stopped.haz.pending.getLsbD 0 = true ∧ stopped.port.replies = [] ∧ stopped.haz.sources[srcStop].raisedSince = true ∧
      (after .cpLineFree stopped).haz.sources[srcStop].raisedSince = false ∧
      mirrorsWait.haz.pending = 0 ∧ mirrorsWait.port.mirrors = [1] :: [[2]] ∧
      nextToken [.wheelSpeed .left, .bladeStop .bladeA] = some (.bladeStop .bladeA) ∧
      nextToken [.wheelSpeed .left, .height] = some (.wheelSpeed .left) ∧ on.dp.cycle = .idle ∧
      on.gate.refusal = none ∧ (enterRefusal .gated 5 6 2 on).gate.refusal = some ⟨.gated, 5, 6, 2, 0⟩ ∧
      sourceValue (setDriveRec .deck { freshDriveRec with state := .faulted } on) srcDriveFault = some 5 ∧
      sourceValue on srcDriveFault = none ∧ sourceValue on srcSensorSilent = none ∧
      nodeSilent (setNode 5 (some ⟨.silent, none⟩) on).haz 5 = true := by decide +kernel

end Sys2Proof.Tests
end

section
/-! The correlation of a code, the update of an estimate cell and the distance interpolated on the breakpoint table (R8, R19 to R25). -/

namespace Sys2Proof.Machine

/-! ### Correlation (R8) -/

theorem abs_chip (code : BitVec 16) (i : Nat) : |chip code i| = 1 := by
  unfold chip
  split <;> rfl

theorem correlation_eq_sum (code : BitVec 16) (x : Vector Int 16) (r : Fin 16) :
    correlation code x.toList r = ∑ i : Fin 16, chip code (i + r).val * x[i] := by
  rw [correlation, ← List.map_coe_finRange_eq_range, List.map_map, Fin.sum_univ_def]
  refine congrArg List.sum (List.map_congr_left fun i _ => ?_)
  simp [Fin.val_add]

/-- Sixteen products of a chip and a sample of magnitude at most 128 stay within 2048. -/
theorem abs_correlation_le (code : BitVec 16) (x : Vector Int 16) (r : Fin 16) (hx : ∀ i : Fin 16, |x[i]| ≤ 128) :
    |correlation code x.toList r| ≤ 2048 := by
  have hterm (i : Fin 16) : |chip code (i + r).val * x[i]| ≤ 128 := by
    rw [abs_mul, abs_chip, one_mul]
    exact hx i
  calc |correlation code x.toList r|
      = |∑ i : Fin 16, chip code (i + r).val * x[i]| := by rw [correlation_eq_sum]
    _ ≤ ∑ i : Fin 16, |chip code (i + r).val * x[i]| := Finset.abs_sum_le_sum_abs _ _
    _ ≤ ∑ _i : Fin 16, 128 := Finset.sum_le_sum fun i _ => hterm i
    _ = 2048 := by simp

/-! ### Strength, sign and filter (R21, R24, R25) -/

theorem strength_unsaturated (con : Int) (gain : Nat) : strength false con gain = min 4095 (con.natAbs * gain / 64) := rfl

theorem strength_saturated (con : Int) (gain : Nat) : strength true con gain = 4095 := rfl

theorem signOf_zero (polarity keep : Sign) : signOf 0 polarity keep = keep := rfl

theorem signOf_val {con : Int} (h : con ≠ 0) (polarity keep : Sign) : (signOf con polarity keep).val = con.sign * polarity.val := by
  unfold signOf
  rcases lt_or_gt_of_ne h with hneg | hpos
  · rw [if_neg h, if_neg hneg.not_gt, Int.sign_eq_neg_one_of_neg hneg]
    cases polarity <;> rfl
  · rw [if_neg h, if_pos hpos, Int.sign_eq_one_of_pos hpos, one_mul]

theorem natAbs_sign_val_mul (s : Sign) (x : Int) : (s.val * x).natAbs = x.natAbs := by
  cases s <;> simp [Sign.val]

/-- With the whole difference as its share the filter takes the new value. -/
theorem filterStep_sixteen (d e : Int) : filterStep 16 d e = 16 * d := by
  unfold filterStep
  rw [Nat.cast_ofNat, Int.mul_tdiv_cancel _ (by decide)]
  omega

/-- A share of at most sixteen sixteenths of x, truncated, lies between 0 and x. -/
theorem tdiv_share_between {alpha : Nat} (h : alpha ≤ 16) (x : Int) :
    (0 ≤ x → 0 ≤ (x * alpha).tdiv 16 ∧ (x * alpha).tdiv 16 ≤ x) ∧ (x ≤ 0 → x ≤ (x * alpha).tdiv 16 ∧ (x * alpha).tdiv 16 ≤ 0) := by
  have of_nonneg {y : Int} (hy : 0 ≤ y) : 0 ≤ (y * alpha).tdiv 16 ∧ (y * alpha).tdiv 16 ≤ y := by
    have hprod : 0 ≤ y * alpha := by positivity
    have hle : y * alpha ≤ y * 16 := mul_le_mul_of_nonneg_left (by exact_mod_cast h) hy
    rw [Int.tdiv_eq_ediv_of_nonneg hprod]
    omega
  refine ⟨of_nonneg, fun hx => ?_⟩
  have hneg := of_nonneg (y := -x) (by omega)
  rw [neg_mul, Int.neg_tdiv] at hneg
  omega

/-- The filtered state moves towards sixteen times the offset and never past it, so a bound on both bounds the next state. -/
theorem natAbs_filterStep_le {alpha : Nat} {d e : Int} {b : Nat} (h : alpha ≤ 16) (hd : (16 * d).natAbs ≤ b) (he : e.natAbs ≤ b) :
    (filterStep alpha d e).natAbs ≤ b := by
  obtain ⟨hup, hdown⟩ := tdiv_share_between h (16 * d - e)
  unfold filterStep
  omega

/-! ### The update of a cell (R19, R20) -/

section
variable (t : Tables) (l : LoopEntry) (gain : Nat) (sat : Bool) (con : Int) (c : EstCell)

theorem updateCell_sign :
    (updateCell t l gain sat con c).sign = signOf con l.polarity (if c.mark = .fresh then c.sign else .plus) := rfl

theorem updateCell_used :
    (updateCell t l gain sat con c).used = if c.mark = .fresh then min 65535 (c.used + 1) else 1 := by
  simp only [updateCell]
  split
  · split <;> omega
  · rfl

theorem updateCell_e_of_not_fresh {c : EstCell} (h : c.mark ≠ .fresh) :
    let x := updateCell t l gain sat con c
    x.e = 16 * (x.sign.val * x.d) := if_neg h

theorem updateCell_e_of_fresh {c : EstCell} (h : c.mark = .fresh) :
    let x := updateCell t l gain sat con c
    x.e = filterStep l.alpha (x.sign.val * x.d) c.e := if_pos h

theorem updateCell_e_of_alpha_sixteen {l : LoopEntry} (h : l.alpha = 16) :
    let x := updateCell t l gain sat con c
    x.e = 16 * (x.sign.val * x.d) := by
  intro x
  by_cases hc : c.mark = .fresh
  · rw [updateCell_e_of_fresh t l gain sat con hc, h, filterStep_sixteen]
  · exact updateCell_e_of_not_fresh t l gain sat con hc

theorem updateCell_natAbs_e_le {l : LoopEntry} {c : EstCell} (h : l.alpha ≤ 16) (hd : (updateCell t l gain sat con c).d ≤ 1000)
    (he : c.e.natAbs ≤ 16000) : (updateCell t l gain sat con c).e.natAbs ≤ 16000 := by
  have hoff := natAbs_sign_val_mul (updateCell t l gain sat con c).sign (updateCell t l gain sat con c).d
  have htarget : (16 * ((updateCell t l gain sat con c).sign.val * (updateCell t l gain sat con c).d)).natAbs ≤ 16000 := by omega
  by_cases hc : c.mark = .fresh
  · rw [updateCell_e_of_fresh t l gain sat con hc]
    exact natAbs_filterStep_le h htarget he
  · rwa [updateCell_e_of_not_fresh t l gain sat con hc]

end

/-! ### The distance (R23) -/

/-- The truncated interpolation between the breakpoints a and b. -/
def interpolation (a b : Breakpoint) (f : Nat) : Nat := a.d + (a.f - f) * (b.d - a.d) / (a.f - b.f)

theorem interpolation_at_lower {a b : Breakpoint} (hf : b.f < a.f) (hd : a.d ≤ b.d) : interpolation a b b.f = b.d := by
  rw [interpolation, Nat.mul_div_cancel_left _ (Nat.sub_pos_of_lt hf), Nat.add_sub_cancel' hd]

theorem interpolation_between {a b : Breakpoint} {f : Nat} (hd : a.d ≤ b.d) (hf : b.f ≤ f) :
    a.d ≤ interpolation a b f ∧ interpolation a b f ≤ b.d := by
  refine ⟨Nat.le_add_right _ _, ?_⟩
  have hshare : (a.f - f) * (b.d - a.d) / (a.f - b.f) ≤ b.d - a.d :=
    Nat.div_le_of_le_mul (Nat.mul_le_mul_right _ (Nat.sub_le_sub_left hf _))
  calc interpolation a b f
      ≤ a.d + (b.d - a.d) := Nat.add_le_add_left hshare _
    _ = b.d := Nat.add_sub_cancel' hd

theorem distance_of_first_le {t : Tables} {f : Nat} (h : (t.point 0).f ≤ f) : distance t f = (t.point 0).d := if_pos h

section
variable {t : Tables} {f : Nat} (hF : ∀ j : Fin 7, (t.point (j.val + 1)).f < (t.point j.val).f)
include hF

/-- The strengths of the breakpoints decrease along the whole table. -/
theorem point_f_antitone {i j : Nat} (hij : i ≤ j) (hj : j ≤ 7) : (t.point j).f ≤ (t.point i).f := by
  induction j, hij using Nat.le_induction with
  | base => exact le_rfl
  | succ j _ ih => exact (hF ⟨j, hj⟩).le.trans (ih (Nat.le_of_succ_le hj))

theorem distance_of_le_last (h : f ≤ (t.point 7).f) : distance t f = (t.point 7).d := by
  have hfirst : ¬(t.point 0).f ≤ f := by
    have hstep : (t.point 1).f < (t.point 0).f := hF 0
    have hrest : (t.point 7).f ≤ (t.point 1).f := point_f_antitone hF (by decide) le_rfl
    omega
  rw [distance, if_neg hfirst, if_pos h]

/-- The first breakpoint pair whose lower strength is not above F is the one F lies in. -/
theorem find_segment {j : Fin 7} (hlt : f < (t.point j.val).f) (hle : (t.point (j.val + 1)).f ≤ f) :
    (List.range 7).find? (fun i => decide ((t.point (i + 1)).f ≤ f)) = some j.val := by
  rw [List.find?_range_eq_some]
  refine ⟨decide_eq_true hle, List.mem_range.mpr j.isLt, fun i hi => ?_⟩
  have hbefore : (t.point j.val).f ≤ (t.point (i + 1)).f := point_f_antitone hF hi j.isLt.le
  simpa using hlt.trans_le hbefore

/-- F between two breakpoints gives their interpolation, at the lower strength and at the table's end as well. -/
theorem distance_eq_interpolation (hD : ∀ j : Fin 7, (t.point j.val).d ≤ (t.point (j.val + 1)).d) {j : Fin 7}
    (hlt : f < (t.point j.val).f) (hle : (t.point (j.val + 1)).f ≤ f) :
    distance t f = interpolation (t.point j.val) (t.point (j.val + 1)) f := by
  by_cases hlast : f ≤ (t.point 7).f
  · have hj : j = 6 := by
      by_contra hne
      have hnext : (t.point (j.val + 2)).f < (t.point (j.val + 1)).f := hF ⟨j.val + 1, by omega⟩
      have hend : (t.point 7).f ≤ (t.point (j.val + 2)).f := point_f_antitone hF (by omega) le_rfl
      omega
    subst hj
    rw [distance_of_le_last hF hlast, hlast.antisymm hle]
    exact (interpolation_at_lower (hF 6) (hD 6)).symm
  · have hfirst : f < (t.point 0).f := hlt.trans_le (point_f_antitone hF (Nat.zero_le _) j.isLt.le)
    rw [distance, if_neg hfirst.not_ge, if_neg hlast, find_segment hF hlt hle]
    rfl

theorem distance_at_point (hD : ∀ j : Fin 7, (t.point j.val).d ≤ (t.point (j.val + 1)).d) (j : Fin 8) :
    distance t (t.point j.val).f = (t.point j.val).d := by
  cases j using Fin.cases with
  | zero => exact distance_of_first_le le_rfl
  | succ j =>
    rw [Fin.val_succ, distance_eq_interpolation hF hD (hF j) le_rfl]
    exact interpolation_at_lower (hF j) (hD j)

end

/-- Settles O18: R8 by the correlation as a sum of bounded products, R19 to R25 field by field of the updated cell, R23 by the breakpoint
pair the strength lies in. -/
theorem correlationStrengthAndDistance : Obligations.CorrelationStrengthAndDistance := by
  refine ⟨fun code x r hx => ?_, fun t l gain con c _ hα => ?_, fun t f hF hD => ?_⟩
  · have hsamples (i : Fin 16) : |x[i]| ≤ 128 := abs_le.mpr ⟨(hx i).1, (hx i).2.trans (by decide)⟩
    exact ⟨correlation_eq_sum code x r, abs_le.mp (abs_correlation_le code x r hsamples)⟩
  · refine ⟨strength_unsaturated con gain, strength_saturated con gain, fun sat => ?_⟩
    refine ⟨rfl, rfl, rfl, updateCell_used t l gain sat con c, fun hcon => ?_, fun hcon => ?_,
      updateCell_e_of_not_fresh t l gain sat con, updateCell_e_of_fresh t l gain sat con,
      updateCell_e_of_alpha_sixteen t gain sat con c, updateCell_natAbs_e_le t gain sat con hα, rfl⟩
    · rw [updateCell_sign, signOf_val hcon]
    · rw [updateCell_sign, hcon, signOf_zero]
  · refine ⟨distance_of_first_le, distance_of_le_last hF, ?_, fun j hlt hle => ?_⟩
    · rintro j rfl
      exact distance_at_point hF hD j
    · have hinterp := distance_eq_interpolation hF hD hlt hle
      exact ⟨hinterp, hinterp ▸ interpolation_between (hD j) hle⟩

end Sys2Proof.Machine
end

section
/-! The source caps and the held values as a derivation leaves them (R33 to R38, R42 to R45), in the words of `CapsFollow` and `HeldFollows`. -/

namespace Sys2Proof.Machine

/-! ### The smallest and the largest of a selection -/

theorem le_foldl_min_iff {α : Type} (p : α → Bool) (f : α → Nat) (l : List α) (m v : Nat) :
    v ≤ l.foldl (fun m x => if p x then min m (f x) else m) m ↔ v ≤ m ∧ ∀ x ∈ l, p x = true → v ≤ f x := by
  induction l generalizing m with
  | nil => simp
  | cons x l ih =>
    rw [List.foldl_cons, ih]
    by_cases hx : p x = true <;> simp [hx, and_assoc]

theorem foldl_max_le_iff {α : Type} (p : α → Bool) (f : α → Nat) (l : List α) (m v : Nat) :
    l.foldl (fun m x => if p x then max m (f x) else m) m ≤ v ↔ m ≤ v ∧ ∀ x ∈ l, p x = true → f x ≤ v := by
  induction l generalizing m with
  | nil => simp
  | cons x l ih =>
    rw [List.foldl_cons, ih]
    by_cases hx : p x = true <;> simp [hx, and_assoc]

/-! ### The banded caps (R33, R35, R36) -/

/-- R33: the band of a value is the first of 0 to 2 whose bound it is below, else band 3. -/
theorem banded_bandCap (t : Tables) (g : Fin 3) (v : Nat) : Banded t g v (t.bandCap g v) := by
  unfold Banded Tables.bandCap
  split_ifs with h0 h1 h2
  · exact ⟨0, rfl, .inr h0, by simp⟩
  · exact ⟨1, rfl, .inr h1, by simpa [Fin.forall_fin_succ] using h0⟩
  · exact ⟨2, rfl, .inr h2, by simp [Fin.forall_fin_succ]; omega⟩
  · exact ⟨3, rfl, .inl rfl, by simp [Fin.forall_fin_succ]; omega⟩

theorem proximityCap_of_neg (t : Tables) {n : Int} (h : n < 0) : proximityCap t (some n) = (t.band 0 0).cap := if_pos h

theorem banded_proximityCap (t : Tables) {n : Int} (h : 0 ≤ n) : Banded t 0 n.toNat (proximityCap t (some n)) := by
  have hcap : proximityCap t (some n) = t.bandCap 0 n.toNat := if_neg h.not_gt
  exact hcap ▸ banded_bandCap t 0 n.toNat

theorem inclineFresh_iff (h : HazardMonitor) : h.inclineFresh = true ↔ h.nodes[(4 : Fin 8)].map NodeRec.state = some .fresh := by
  unfold HazardMonitor.inclineFresh
  split <;> simp [*]

/-! ### The load cap (R37) -/

theorem loadValue_le_iff (t : Tables) (p : PerBlade) (v : Nat) :
    loadValue t p ≤ v ↔ ∀ b : Blade, t.mapped (.blade b) = true → p.get b ≤ v := by
  rw [loadValue, foldl_max_le_iff]
  have hall (b : Blade) : b ∈ Blade.all := by cases b <;> decide
  simp [hall]

/-- R37: the largest percent among the mapped blades, or 0 when none is mapped, is the load value. -/
theorem eq_loadValue {t : Tables} {p : PerBlade} {v : Nat} (hub : ∀ b : Blade, t.mapped (.blade b) = true → p.get b ≤ v)
    (hat : (∃ b : Blade, t.mapped (.blade b) = true ∧ p.get b = v) ∨ (v = 0 ∧ t.anyBlade = false)) : v = loadValue t p := by
  refine le_antisymm ?_ ((loadValue_le_iff t p v).mpr hub)
  rcases hat with ⟨b, hb, rfl⟩ | ⟨rfl, -⟩
  · exact (loadValue_le_iff t p _).mp le_rfl b hb
  · exact Nat.zero_le _

/-! ### The hazard cap (R38) -/

theorem slowCounts_iff (s : State) (i : Fin 16) :
    slowCounts s.tables s.haz i = true ↔ s.tables.hazard[i].response = .slow ∧ (s.srcState i = .raised ∨ s.srcState i = .held) := by
  rw [slowCounts, State.srcState]
  cases s.haz.sources[i].state <;> simp

theorem le_hazardCap_iff (t : Tables) (h : HazardMonitor) (v : Nat) :
    v ≤ hazardCap t h ↔ v ≤ 1000 ∧ ∀ i, slowCounts t h i = true → v ≤ t.hazard[i].slowCap := by
  rw [hazardCap, le_foldl_min_iff]
  simp

/-- The hazard cap is 1000 or the SLOW cap of a source that counts: else the number above it would be below all of them too. -/
theorem hazardCap_attained (t : Tables) (h : HazardMonitor) :
    hazardCap t h = 1000 ∨ ∃ i, slowCounts t h i = true ∧ hazardCap t h = t.hazard[i].slowCap := by
  obtain ⟨htop, hslow⟩ := (le_hazardCap_iff t h _).mp le_rfl
  by_contra hnone
  push Not at hnone
  obtain ⟨hne, hnone⟩ := hnone
  have habove : hazardCap t h + 1 ≤ hazardCap t h :=
    (le_hazardCap_iff t h _).mpr ⟨htop.lt_of_ne hne, fun i hi => (hslow i hi).lt_of_ne (hnone i hi)⟩
  exact Nat.not_succ_le_self _ habove

/-! ### The derivation (R40, R45) -/

theorem capsFollow_formCaps (s : State) : CapsFollow s (formCaps s) := by
  have hincline := inclineFresh_iff s.haz
  obtain ⟨htop, hslow⟩ := (le_hazardCap_iff s.tables s.haz _).mp le_rfl
  refine ⟨fun hn => ?_, fun n hn => ⟨fun h => ?_, fun h => ?_⟩, fun h => ?_, fun h => ?_, fun h => ?_, fun v h hub hat => ?_,
    fun i hi => hslow i ((slowCounts_iff s i).mpr hi), htop, ?_⟩
  · simp only [formCaps, hn, proximityCap]
  · simp only [formCaps, hn, proximityCap_of_neg _ h]
  · simpa only [formCaps, hn] using banded_proximityCap s.tables h
  · simpa only [formCaps, slopeCap, slopeOf, hincline.mpr h, if_true] using banded_bandCap s.tables 1 _
  · simp only [formCaps, slopeCap, if_neg (hincline.not.mpr h)]
  · simp [formCaps, loadCap, h]
  · simpa only [formCaps, loadCap, h, if_true, eq_loadValue hub hat] using banded_bandCap s.tables 2 _
  · simpa only [formCaps, slowCounts_iff] using hazardCap_attained s.tables s.haz

theorem capsFollow_refresh (s : State) : CapsFollow (refresh s) (refresh s).env.caps := by
  simpa [CapsFollow, State.srcState] using capsFollow_formCaps s

theorem refresh_k (s : State) : (refresh s).env.k = (refresh s).env.caps.effective := by simp

theorem heldFollows_refresh (s : State) : HeldFollows (refresh s) := by
  refine ⟨by simp [formHeld], fun b => ?_, ?_⟩
  · cases b <;> simp [formHeld, PerBlade.get, heldBlade]
  · simp only [refresh_env_held, refresh_env_req, formHeld, heldDeck, clampNat]
    split_ifs <;> omega

end Sys2Proof.Machine
end

section
/-! The change of a condition: the table of R77 row by row, and what every row of it has in common (R79). -/

namespace Sys2Proof.Machine

section
variable {s : State} {i : Fin 16} {v : Bool}

/-! ### The rows of R77 -/

theorem hazardMove_of_cond_eq (h : s.haz.sources[i].cond = v) : hazardMove i v s = (s, false) := if_pos h

theorem hazardMove_of_disabled (h : s.haz.sources[i].cond ≠ v) (hd : s.tables.hazard[i].enabled = false) :
    hazardMove i v s = (setSource i { s.haz.sources[i] with cond := v } s, false) := by
  rw [hazardMove, if_neg h, if_pos hd]

section
variable (he : s.tables.hazard[i].enabled = true)
include he

theorem hazardMove_of_quiet (hc : s.haz.sources[i].cond = false) (hs : s.haz.sources[i].state = .quiet) :
    hazardMove i true s = (moveSource i .raised none (setSource i { s.haz.sources[i] with cond := true } s), true) := by
  simp only [hazardMove, hc, he, hs, Bool.false_eq_true, Bool.true_eq_false, if_false]

theorem hazardMove_of_held (hc : s.haz.sources[i].cond = false) (hs : s.haz.sources[i].state = .held) :
    hazardMove i true s = (moveSource i .raised none (setSource i { s.haz.sources[i] with cond := true } s), false) := by
  simp only [hazardMove, hc, he, hs, Bool.false_eq_true, Bool.true_eq_false, if_false]

theorem hazardMove_of_raised (hc : s.haz.sources[i].cond = true) (hs : s.haz.sources[i].state = .raised) :
    hazardMove i false s =
      (let s1 := setSource i { s.haz.sources[i] with cond := false } s
       if s.tables.hazard[i].hold = 0 then moveSource i .quiet none s1 else moveSource i .held (some s.tables.hazard[i].hold) s1, false) := by
  simp only [hazardMove, hc, he, hs, Bool.true_eq_false, if_false]

/-- The pairs of a state and a condition that R77 names no row for: the condition alone is taken. -/
theorem hazardMove_of_agrees (h : s.haz.sources[i].cond ≠ v) (hs : s.haz.sources[i].state = .raised ↔ v = true) :
    hazardMove i v s = (setSource i { s.haz.sources[i] with cond := v } s, false) := by
  rw [hazardMove, if_neg h, if_neg (ne_false_of_eq_true he)]
  split
  case h_1 hquiet => exact nomatch hquiet.symm.trans (hs.mpr rfl)
  case h_2 hraised => exact nomatch hs.mp hraised
  case h_3 hheld => exact nomatch hheld.symm.trans (hs.mpr rfl)
  all_goals rfl

end

/-! ### What every change has in common -/

/-- A condition handed over changes nothing, or the condition alone, or moves the source to another state. -/
theorem hazardMove_cases (i : Fin 16) (v : Bool) (s : State) :
    (hazardMove i v s).1 = s ∨ (hazardMove i v s).1 = setSource i { s.haz.sources[i] with cond := v } s ∨
      ∃ st hold, st ≠ s.haz.sources[i].state ∧
        (hazardMove i v s).1 = moveSource i st hold (setSource i { s.haz.sources[i] with cond := v } s) := by
  by_cases hc : s.haz.sources[i].cond = v
  · exact .inl (by rw [hazardMove_of_cond_eq hc])
  · refine .inr ?_
    cases he : s.tables.hazard[i].enabled with
    | false => exact .inl (by rw [hazardMove_of_disabled hc he])
    | true =>
      by_cases hag : s.haz.sources[i].state = .raised ↔ v = true
      · exact .inl (by rw [hazardMove_of_agrees he hc hag])
      · refine .inr ?_
        cases v with
        | true =>
          have hc : s.haz.sources[i].cond = false := by simpa using hc
          have hne : s.haz.sources[i].state ≠ .raised := by simpa using hag
          refine ⟨.raised, none, hne.symm, ?_⟩
          cases hs : s.haz.sources[i].state with
          | quiet => rw [hazardMove_of_quiet he hc hs]
          | held => rw [hazardMove_of_held he hc hs]
          | raised => exact absurd hs hne
        | false =>
          have hc : s.haz.sources[i].cond = true := by simpa using hc
          have hs : s.haz.sources[i].state = .raised := by simpa using hag
          rw [hazardMove_of_raised he hc hs, hs]
          by_cases hh : s.tables.hazard[i].hold = 0
          · exact ⟨.quiet, none, by decide, if_pos hh⟩
          · exact ⟨.held, some _, by decide, if_neg hh⟩

theorem setSource_source (i : Fin 16) (r : SrcRec) (s : State) : (setSource i r s).haz.sources[i] = r := by simp

theorem moveSource_source (i : Fin 16) (st : SrcState) (hold : Option Nat) (s : State) :
    (moveSource i st hold s).haz.sources[i] =
      { s.haz.sources[i] with state := st, hold := hold, raisedSince := s.haz.sources[i].raisedSince || st = .raised } := by
  simp

/-- R79: the notice of the source becomes pending with every change of its state, and with nothing else. -/
theorem hazardMove_haz_pending (i : Fin 16) (v : Bool) (s : State) :
    (hazardMove i v s).1.haz.pending =
      if (hazardMove i v s).1.haz.sources[i].state = s.haz.sources[i].state then s.haz.pending
      else s.haz.pending ||| BitVec.twoPow 20 i.val := by
  obtain h | h | ⟨st, hold, hne, h⟩ := hazardMove_cases i v s <;> rw [h]
  · rw [if_pos rfl]
  · rw [setSource_source, if_pos rfl, setSource_haz_pending]
  · rw [moveSource_source, if_neg hne, moveSource_haz_pending, setSource_haz_pending]

theorem hazardMove_env (h : (hazardMove i v s).1.haz.sources[i].state = s.haz.sources[i].state) : (hazardMove i v s).1.env = s.env := by
  obtain hx | hx | ⟨st, hold, hne, hx⟩ := hazardMove_cases i v s <;> rw [hx] at h ⊢
  · exact setSource_env s i _
  · rw [moveSource_source] at h
    exact absurd h hne

/-- R79: a change of state is a derivation. -/
theorem hazardMove_refreshed (h : (hazardMove i v s).1.haz.sources[i].state ≠ s.haz.sources[i].state) :
    ∃ w, (hazardMove i v s).1 = refresh w := by
  obtain hx | hx | ⟨st, hold, -, hx⟩ := hazardMove_cases i v s
  · exact absurd (by rw [hx]) h
  · exact absurd (by rw [hx, setSource_source]) h
  · exact ⟨_, hx⟩

theorem setCondition_eq (i : Fin 16) (v : Bool) (s : State) :
    setCondition i v s = if (hazardMove i v s).2 then actEvent (responseChange i) (hazardMove i v s).1 else (hazardMove i v s).1 := by
  unfold setCondition
  obtain ⟨u, fires⟩ := hazardMove i v s
  cases fires <;> rfl

end

/-- Settles O22: each row of R77 by its equation, the notice and the derivation by the three things a change can do. -/
theorem conditionChangesMoveTheSource : Obligations.ConditionChangesMoveTheSource := by
  intro i v s r x
  refine ⟨hazardMove_of_cond_eq, fun hc hd => ?_, ?_, ?_, ?_, hazardMove_haz_pending i v s, fun h => ?_, hazardMove_env,
    fun j hj => hazardMove_other s i j v hj, hazardMove_act s i v, hazardMove_tables s i v, setCondition_eq i v s⟩
  · have hx : x = _ := hazardMove_of_disabled hc hd
    exact hx ▸ ⟨rfl, setSource_source i _ s⟩
  · rintro hc rfl he hs
    have hx : x = _ := hazardMove_of_quiet he hc hs
    exact hx ▸ ⟨rfl, by simp [r]⟩
  · rintro hc rfl he hs
    have hx : x = _ := hazardMove_of_held he hc hs
    exact hx ▸ ⟨rfl, by simp [r]⟩
  · rintro hc rfl he hs
    have hx : x = _ := hazardMove_of_raised he hc hs
    refine hx ▸ ⟨rfl, ?_⟩
    dsimp only
    split <;> simp [r]
  · obtain ⟨w, hw⟩ : ∃ w, x.1 = refresh w := hazardMove_refreshed h
    rw [hw]
    exact ⟨capsFollow_refresh w, refresh_k w, heldFollows_refresh w⟩

end Sys2Proof.Machine
end
